-- ==== Sys2Proof/Word.lean ====
section
/-! DEFINITION. The words the bus block computes with (spec/00_scope.md R6, R10, R11). -/

namespace Sys2Proof

/-- A byte is 8 bits (R11). -/
abbrev Byte := BitVec 8

/-- A station id: 6 bits, 0 to 63 (R6, R61). -/
abbrev StationId := BitVec 6

/-- A counter: 32 bits, wrapping (R10). -/
abbrev Count := BitVec 32

/-- The checksum register: `CHK_WIDTH` bits, 8 or 16 (R7). An 8-bit checksum stands in the low byte, the high byte zero. -/
abbrev ChkReg := BitVec 16

end Sys2Proof
end

