-- ==== Sys2Proof/Config.lean ====
section
/-! DEFINITION. The block's parameters (spec/00_scope.md R7, R8, R9): "a model takes each as an argument".
They are plain data, carried in `State` and written by no step (R47; log entry 1). -/

namespace Sys2Proof

/-- `CHK_WIDTH`: 8 or 16 bits (R7). -/
inductive ChkWidth
  | w8
  | w16
  deriving DecidableEq, Repr

/-- `CHK_BYTES = CHK_WIDTH / 8` (R7). -/
def ChkWidth.bytes : ChkWidth → Nat
  | .w8 => 1
  | .w16 => 2

/-- `CHK_ORDER` (R7, R65). -/
inductive ChkOrder
  | lsbFirst
  | msbFirst
  deriving DecidableEq, Repr

/-- `CHK_STEP` (R7: a total function of register and byte), given as data (log entry 3). The two CRC forms name the
usual checksums shortly; a table names any function at all. -/
inductive ChkStepFn
  /-- A CRC that shifts right, as R117 does, by this polynomial. -/
  | crcReflected (poly : ChkReg)
  /-- A CRC that shifts left, by this polynomial. -/
  | crcForward (poly : ChkReg)
  /-- The value for register `c` and byte `b` stands at index `256 * c + b`; a missing one is 0. -/
  | table (values : List ChkReg)
  deriving DecidableEq, Repr

/-- `CHK_FINAL` (R7: a total function of the register), given as data (log entry 3). -/
inductive ChkFinalFn
  /-- The exclusive or with a constant; with 0 it is the identity. -/
  | xorWith (mask : ChkReg)
  /-- The value for register `c` stands at index `c`; a missing one is 0. -/
  | table (values : List ChkReg)
  deriving DecidableEq, Repr

/-- The durations of R9, in milliseconds. No rule reads one. -/
structure Durations where
  tSense : Nat
  tJoinWin : Nat
  tResp : Nat
  tToken : Nat
  tJoinWait : Nat
  tInterByte : Nat
  deriving DecidableEq, Repr

/-- The parameters of the wire format (R7), of the controller (R8) and the durations (R9). -/
structure Params where
  /-- `MARKER`. -/
  marker : Byte
  /-- `ESC`. -/
  esc : Byte
  /-- `ESC_ENC(MARKER)`: the literal sent after `ESC` for the marker (log entry 2). -/
  markerLit : Byte
  /-- `ESC_ENC(ESC)`: the literal sent after `ESC` for the escape byte (log entry 2). -/
  escLit : Byte
  chkWidth : ChkWidth
  chkInit : ChkReg
  /-- `CHK_STEP`. -/
  chkStepFn : ChkStepFn
  /-- `CHK_FINAL`. -/
  chkFinalFn : ChkFinalFn
  chkOrder : ChkOrder
  chkCoversMarker : Bool
  unassignedWireId : StationId
  masterStationId : StationId
  /-- `QUEUE_DEPTH`; `none` is the unbounded queue that D13 allows. -/
  queueDepth : Option Nat
  /-- `MAX_TX_PER_TOKEN`; `none` is the unbounded drain that D14 allows. -/
  maxTxPerToken : Option Nat
  nTimeout : Nat
  nChkFail : Nat
  nRetry : Nat
  durations : Durations
  deriving DecidableEq, Repr

/-- `QUEUE_DEPTH` of the machine that `State.reset` describes: OPEN in R8 (log entry 5). -/
opaque Config.queueDepthRaw : Option Nat

/-- `MAX_TX_PER_TOKEN` likewise (log entry 5). -/
opaque Config.maxTxPerTokenRaw : Option Nat

/-- `N_TIMEOUT` likewise (log entry 5). -/
opaque Config.nTimeoutRaw : Count

/-- `N_CHKFAIL` likewise (log entry 5). -/
opaque Config.nChkFailRaw : Count

/-- `N_RETRY` likewise (log entry 5). -/
opaque Config.nRetryRaw : Count

/-- The six durations likewise, `T_SENSE` first, in the order of R9 (log entry 5). -/
opaque Config.durationRaw : Nat → Nat

/-- The default `ESC_ENC(b) = b & 0x7F` (R7). -/
def defaultEscEnc (b : Byte) : Byte := b &&& 0x7F#8

/-- The parameters of the machine after reset: the spec's default profile (R7, R8), and for the OPEN ones the
uninterpreted constants above, held inside the constraints of R8 (log entries 4, 5 and 6). -/
def Params.profile : Params where
  marker := 0xFD#8
  esc := 0xFC#8
  markerLit := defaultEscEnc 0xFD#8
  escLit := defaultEscEnc 0xFC#8
  chkWidth := .w16
  chkInit := 0x0000#16
  chkStepFn := .crcReflected 0x8408#16
  chkFinalFn := .xorWith 0x0000#16
  chkOrder := .lsbFirst
  chkCoversMarker := true
  unassignedWireId := 63#6
  masterStationId := 0#6
  queueDepth := Config.queueDepthRaw.map (max 1)
  maxTxPerToken := Config.maxTxPerTokenRaw.map (max 1)
  nTimeout := max 1 Config.nTimeoutRaw.toNat
  nChkFail := max 1 Config.nChkFailRaw.toNat
  nRetry := min Config.nRetryRaw.toNat (2 ^ 32 - 2)
  durations :=
    { tSense := Config.durationRaw 0, tJoinWin := Config.durationRaw 1, tResp := Config.durationRaw 2
      tToken := Config.durationRaw 3, tJoinWait := Config.durationRaw 4, tInterByte := Config.durationRaw 5 }

end Sys2Proof
end

