-- ==== Sys2Proof/Syntax.lean ====
section
/-! DEFINITION. The syntax of the block: frames (spec/00_scope.md R13), the operands of the host operations
(spec/44_host_interface.md), and `Instr`, one constructor per row of spec/opcode_table.json. -/

namespace Sys2Proof

/-- The fields every frame has (R13, R82, R83). The type bit is the frame's format (R86). -/
structure Header where
  dest : StationId
  bc : Bool
  src : StationId
  ctr : BitVec 2
  deriving DecidableEq, Repr

/-- A command frame: format C (R80). `len` is `payload.length` (R13, R85). -/
structure CommandFrame where
  hdr : Header
  cmd : BitVec 4
  payload : List Byte
  deriving DecidableEq, Repr

/-- A frame (R13): header-only (format H, `type = 0`, no command and no payload) or a command frame (`type = 1`). -/
inductive Frame
  | headerOnly (hdr : Header)
  | command (f : CommandFrame)
  deriving DecidableEq, Repr

/-- The header of a frame of either format. -/
def Frame.hdr : Frame → Header
  | .headerOnly h => h
  | .command f => f.hdr

/-- A received frame (R13): the frame and the token counter at its arrival. -/
structure ReceivedFrame where
  frame : Frame
  tokenCount : Count
  deriving DecidableEq, Repr

/-- The header operand of the host's `encodeHeader` (R111): unsigned integers, not yet checked. -/
structure HostHeader where
  dest : Nat
  bc : Nat
  type : Nat
  src : Nat
  ctr : Nat
  deriving DecidableEq, Repr

/-- The frame operand of the host's `encodeCommandFrame` (R112): unsigned integers, `type` taken as 1. -/
structure HostCommand where
  dest : Nat
  bc : Nat
  src : Nat
  ctr : Nat
  cmd : Nat
  payload : List Nat
  deriving DecidableEq, Repr

/-- The frame operand of `enqueueFrame` and `sendFrame` (R102, R263): unsigned integers, not yet checked. -/
structure HostFrame where
  dest : Nat
  bc : Nat
  type : Nat
  src : Nat
  ctr : Nat
  cmd : Nat
  payload : List Nat
  deriving DecidableEq, Repr

/-- A decoded header (R119). -/
structure DecodedHeader where
  dest : StationId
  bc : Bool
  type : Bool
  src : StationId
  ctr : BitVec 2
  deriving DecidableEq, Repr

/-- The field an EncodeError names (R262, R111, R112). -/
inductive EncodeField
  | dest
  | src
  | ctr
  | bc
  | type
  | cmd
  | length
  | payload
  deriving DecidableEq, Repr

/-- The kinds of DecodeError (R119, R120). -/
inductive DecodeErrorKind
  | short
  | noMarker
  | length
  deriving DecidableEq, Repr

/-- The kinds of FramingError that `unstuff` returns (R122). -/
inductive FramingErrorKind
  | rawMarker
  | truncated
  | escapeViolation
  deriving DecidableEq, Repr

/-- One constructor per row of spec/opcode_table.json: the frame kinds of spec/43_frame_commands.md (a received
frame of that kind), then the host operations of spec/44_host_interface.md (a call with its operands). -/
inductive Instr
  | token (hdr : Header)
  | solicitSuccessorRequest (hdr : Header) (payload : List Byte)
  | solicitSuccessorResponse (hdr : Header) (payload : List Byte)
  | getAddressRequest (hdr : Header) (payload : List Byte)
  | getAddressResponse (hdr : Header) (payload : List Byte)
  | setDeviceAddressRequest (hdr : Header) (payload : List Byte)
  | setDeviceAddressResponse (hdr : Header) (payload : List Byte)
  | setSuccessorAddressRequest (hdr : Header) (payload : List Byte)
  | setSuccessorAddressResponse (hdr : Header) (payload : List Byte)
  | request (hdr : Header) (payload : List Byte)
  | response (hdr : Header) (payload : List Byte)
  | ack (hdr : Header) (payload : List Byte)
  | busy (hdr : Header) (payload : List Byte)
  | cmd0 (hdr : Header) (payload : List Byte)
  | cmd13 (hdr : Header) (payload : List Byte)
  | cmd14 (hdr : Header) (payload : List Byte)
  | cmd15 (hdr : Header) (payload : List Byte)
  | openDevice (deviceIdentifier : List Byte)
  | start
  | enqueueFrame (frame : HostFrame)
  | sendFrame (frame : HostFrame)
  | getState
  | isReady
  | waitForCommandFrame
  | readCounters
  | waitForToken
  | encodeHeader (header : HostHeader)
  | encodeCommandFrame (command : HostCommand)
  | decodeHeader (bytes : List Byte)
  | decodeFrame (bytes : List Byte)
  | readStatus
  | reset
  deriving DecidableEq, Repr

end Sys2Proof
end

