-- ==== Sys2Proof/WellFormed.lean ====
section
/-! DEFINITION. What the encodings admit: the payload nibble of a command frame (spec/30_encoding.md R84, R85) and the
constraints on the parameters (spec/00_scope.md R7, R8). -/

namespace Sys2Proof

/-- A payload fits the 4-bit length nibble (R84, R85). -/
def payloadOk (payload : List Byte) : Bool := decide (payload.length ≤ 15)

/-- An instruction that an encoding exists for. A host operation admits every operand: out-of-range ones are
answered with a status (R276). -/
def Instr.wellFormed : Instr → Bool
  | .token _ => true
  | .solicitSuccessorRequest _ d => payloadOk d
  | .solicitSuccessorResponse _ d => payloadOk d
  | .getAddressRequest _ d => payloadOk d
  | .getAddressResponse _ d => payloadOk d
  | .setDeviceAddressRequest _ d => payloadOk d
  | .setDeviceAddressResponse _ d => payloadOk d
  | .setSuccessorAddressRequest _ d => payloadOk d
  | .setSuccessorAddressResponse _ d => payloadOk d
  | .request _ d => payloadOk d
  | .response _ d => payloadOk d
  | .ack _ d => payloadOk d
  | .busy _ d => payloadOk d
  | .cmd0 _ d => payloadOk d
  | .cmd13 _ d => payloadOk d
  | .cmd14 _ d => payloadOk d
  | .cmd15 _ d => payloadOk d
  | .openDevice _ => true
  | .start => true
  | .enqueueFrame _ => true
  | .sendFrame _ => true
  | .getState => true
  | .isReady => true
  | .waitForCommandFrame => true
  | .readCounters => true
  | .waitForToken => true
  | .encodeHeader _ => true
  | .encodeCommandFrame _ => true
  | .decodeHeader _ => true
  | .decodeFrame _ => true
  | .readStatus => true
  | .reset => true

/-- A command frame whose payload fits (R84). -/
def CommandFrame.wellFormed (f : CommandFrame) : Bool := payloadOk f.payload

/-- A frame of either format whose payload fits (R84). -/
def Frame.wellFormed : Frame → Bool
  | .headerOnly _ => true
  | .command f => f.wellFormed

/-- An optional bound is at least 1 (R8); `none` is unbounded. -/
def boundOk : Option Nat → Bool
  | none => true
  | some n => decide (1 ≤ n)

/-- The constraints of R7 and R8, and that the thresholds can be reached by their 32-bit registers (log entry 6). -/
def Params.wellFormed (p : Params) : Bool :=
  p.marker.getLsbD 7 && p.esc.getLsbD 7 && decide (p.marker ≠ p.esc) &&
  decide (p.markerLit ≠ p.escLit) &&
  decide (p.markerLit ≠ p.marker) && decide (p.markerLit ≠ p.esc) &&
  decide (p.escLit ≠ p.marker) && decide (p.escLit ≠ p.esc) &&
  (decide (p.chkWidth = .w16) || decide (p.chkInit.toNat < 256)) &&
  decide (p.masterStationId ≠ p.unassignedWireId) &&
  boundOk p.queueDepth && boundOk p.maxTxPerToken &&
  decide (1 ≤ p.nTimeout) && decide (p.nTimeout < 2 ^ 32) &&
  decide (1 ≤ p.nChkFail) && decide (p.nChkFail < 2 ^ 32) &&
  decide (p.nRetry + 1 < 2 ^ 32)

end Sys2Proof
end

