-- ==== Sys2Proof/Decode.lean ====
section
/-! DEFINITION. The bit-exact layouts (spec/30_encoding.md), the decoders of spec/40_codec.md R119 and R120, the decoder of
instructions, and after it the encoder. -/

namespace Sys2Proof

/-! ## Packing and field extraction (R82, R83, R84, R93) -/

/-- One bit as the low bit of a byte. -/
def bitByte (b : Bool) : Byte := if b then 1#8 else 0#8

/-- `B1 = (dest << 2) | (bc << 1) | type` (R82). -/
def headerByte1 (dest : StationId) (bc type : Bool) : Byte :=
  (dest.setWidth 8 <<< 2) ||| (bitByte bc <<< 1) ||| bitByte type

/-- `B2 = (src << 2) | ctr` (R83). -/
def headerByte2 (src : StationId) (ctr : BitVec 2) : Byte :=
  (src.setWidth 8 <<< 2) ||| ctr.setWidth 8

/-- `B3 = (cmd << 4) | len` (R84). -/
def commandByte (cmd len : BitVec 4) : Byte :=
  (cmd.setWidth 8 <<< 4) ||| len.setWidth 8

/-- `dest = B1[7:2]` (R93). -/
def destOf (b1 : Byte) : StationId := b1.extractLsb' 2 6

/-- `bc = B1[1]` (R93). -/
def bcOf (b1 : Byte) : Bool := b1.getLsbD 1

/-- `type = B1[0]` (R86, R93). -/
def typeOf (b1 : Byte) : Bool := b1.getLsbD 0

/-- `src = B2[7:2]` (R93). -/
def srcOf (b2 : Byte) : StationId := b2.extractLsb' 2 6

/-- `ctr = B2[1:0]` (R93). -/
def ctrOf (b2 : Byte) : BitVec 2 := b2.extractLsb' 0 2

/-- `cmd = B3[7:4]` (R93). -/
def cmdOf (b3 : Byte) : BitVec 4 := b3.extractLsb' 4 4

/-- `len = B3[3:0]` (R93). -/
def lenOf (b3 : Byte) : BitVec 4 := b3.extractLsb' 0 4

/-- The header fields of two un-stuffed header bytes (R93). -/
def headerOf (b1 b2 : Byte) : Header := ⟨destOf b1, bcOf b1, srcOf b2, ctrOf b2⟩

/-! ## Decoding a layout (R119, R120) -/

/-- `decodeHeader(bytes)` (R119): Short before NoMarker, bytes after byte 2 ignored. -/
def decodeHeaderBytes (p : Params) (bs : List Byte) : Except DecodeErrorKind DecodedHeader :=
  match bs with
  | b0 :: b1 :: b2 :: _ =>
    if b0 = p.marker then .ok ⟨destOf b1, bcOf b1, typeOf b1, srcOf b2, ctrOf b2⟩ else .error .noMarker
  | _ => .error .short

/-- `decodeFrame(bytes)` on an un-stuffed layout without checksum (R120). -/
def decodeFrameBytes (p : Params) (bs : List Byte) : Except DecodeErrorKind Frame :=
  match decodeHeaderBytes p bs with
  | .error k => .error k
  | .ok h =>
    let hdr : Header := ⟨h.dest, h.bc, h.src, h.ctr⟩
    if h.type then
      match bs.drop 3 with
      | [] => .error .short
      | b3 :: payload =>
        if payload.length = (lenOf b3).toNat then .ok (.command ⟨hdr, cmdOf b3, payload⟩) else .error .length
    else if bs.length = 3 then .ok (.headerOnly hdr)
    else .error .length

/-! ## The frame kinds (R94, R95) -/

/-- The instruction of a command frame: its code selects the kind (R94). -/
def Instr.ofCommand (f : CommandFrame) : Instr :=
  match f.cmd.toNat with
  | 0 => .cmd0 f.hdr f.payload
  | 1 => .solicitSuccessorRequest f.hdr f.payload
  | 2 => .solicitSuccessorResponse f.hdr f.payload
  | 3 => .getAddressRequest f.hdr f.payload
  | 4 => .getAddressResponse f.hdr f.payload
  | 5 => .setDeviceAddressRequest f.hdr f.payload
  | 6 => .setDeviceAddressResponse f.hdr f.payload
  | 7 => .setSuccessorAddressRequest f.hdr f.payload
  | 8 => .setSuccessorAddressResponse f.hdr f.payload
  | 9 => .request f.hdr f.payload
  | 10 => .response f.hdr f.payload
  | 11 => .ack f.hdr f.payload
  | 12 => .busy f.hdr f.payload
  | 13 => .cmd13 f.hdr f.payload
  | 14 => .cmd14 f.hdr f.payload
  | _ => .cmd15 f.hdr f.payload

/-- The instruction of a frame: the type bit first, then the code (R94, R105). -/
def Instr.ofFrame : Frame → Instr
  | .headerOnly h => .token h
  | .command f => Instr.ofCommand f

/-- The frame an instruction is the receipt of; none for a host operation. -/
def Instr.frame? : Instr → Option Frame
  | .token h => some (.headerOnly h)
  | .solicitSuccessorRequest h d => some (.command ⟨h, 1#4, d⟩)
  | .solicitSuccessorResponse h d => some (.command ⟨h, 2#4, d⟩)
  | .getAddressRequest h d => some (.command ⟨h, 3#4, d⟩)
  | .getAddressResponse h d => some (.command ⟨h, 4#4, d⟩)
  | .setDeviceAddressRequest h d => some (.command ⟨h, 5#4, d⟩)
  | .setDeviceAddressResponse h d => some (.command ⟨h, 6#4, d⟩)
  | .setSuccessorAddressRequest h d => some (.command ⟨h, 7#4, d⟩)
  | .setSuccessorAddressResponse h d => some (.command ⟨h, 8#4, d⟩)
  | .request h d => some (.command ⟨h, 9#4, d⟩)
  | .response h d => some (.command ⟨h, 10#4, d⟩)
  | .ack h d => some (.command ⟨h, 11#4, d⟩)
  | .busy h d => some (.command ⟨h, 12#4, d⟩)
  | .cmd0 h d => some (.command ⟨h, 0#4, d⟩)
  | .cmd13 h d => some (.command ⟨h, 13#4, d⟩)
  | .cmd14 h d => some (.command ⟨h, 14#4, d⟩)
  | .cmd15 h d => some (.command ⟨h, 15#4, d⟩)
  | .openDevice _ => none
  | .start => none
  | .enqueueFrame _ => none
  | .sendFrame _ => none
  | .getState => none
  | .isReady => none
  | .waitForCommandFrame => none
  | .readCounters => none
  | .waitForToken => none
  | .encodeHeader _ => none
  | .encodeCommandFrame _ => none
  | .decodeHeader _ => none
  | .decodeFrame _ => none
  | .readStatus => none
  | .reset => none

/-! ## The host port's request -/

/-- What a caller puts on the host port: the operation code, and one field per operand the table names. An operation
reads only its own operands; the others are zero. The spec gives the codes and no operand layout (log entry 10). -/
structure HostRequest where
  hop : Byte
  device : List Byte := []
  frame : HostFrame := ⟨0, 0, 0, 0, 0, 0, []⟩
  command : HostCommand := ⟨0, 0, 0, 0, 0, []⟩
  header : HostHeader := ⟨0, 0, 0, 0, 0⟩
  bytes : List Byte := []
  deriving DecidableEq, Repr

/-- Why no instruction is decoded: the layout spells no frame (R120), or the code is no operation (R276). -/
inductive DecodeRefusal
  | frame (kind : DecodeErrorKind)
  | badOp (hop : Byte)
  deriving DecidableEq, Repr

/-- The host operation a request selects by `HOP & 0xFF`; codes 0x0F to 0xFF are none (R276). -/
def decodeHost (r : HostRequest) : Except DecodeRefusal Instr :=
  match r.hop.toNat with
  | 0 => .ok (.openDevice r.device)
  | 1 => .ok .start
  | 2 => .ok (.enqueueFrame r.frame)
  | 3 => .ok (.sendFrame r.frame)
  | 4 => .ok .getState
  | 5 => .ok .isReady
  | 6 => .ok .waitForCommandFrame
  | 7 => .ok .readCounters
  | 8 => .ok .waitForToken
  | 9 => .ok (.encodeHeader r.header)
  | 10 => .ok (.encodeCommandFrame r.command)
  | 11 => .ok (.decodeHeader r.bytes)
  | 12 => .ok (.decodeFrame r.bytes)
  | 13 => .ok .readStatus
  | 14 => .ok .reset
  | _ => .error (.badOp r.hop)

/-- The frame kind an un-stuffed layout spells. -/
def decodeWire (p : Params) (layout : List Byte) : Except DecodeRefusal Instr :=
  match decodeFrameBytes p layout with
  | .ok f => .ok (Instr.ofFrame f)
  | .error k => .error (.frame k)

/-- An encoded instruction: a frame's un-stuffed layout, or a request on the host port. -/
inductive Encoded
  | wire (layout : List Byte)
  | host (request : HostRequest)
  deriving DecidableEq, Repr

/-- The decoder: total on any bytes, rejecting by name. -/
def decode (p : Params) : Encoded → Except DecodeRefusal Instr
  | .wire layout => decodeWire p layout
  | .host r => decodeHost r

/-! ## The encoder (R80 to R87) -/

/-- The three header bytes `[MARKER, B1, B2]` (R81 to R83). -/
def headerLayout (p : Params) (h : Header) (type : Bool) : List Byte :=
  [p.marker, headerByte1 h.dest h.bc type, headerByte2 h.src h.ctr]

/-- The layout of a command frame: format C without its checksum (R80, R84, R85). -/
def commandLayout (p : Params) (f : CommandFrame) : List Byte :=
  headerLayout p f.hdr true ++ commandByte f.cmd (BitVec.ofNat 4 f.payload.length) :: f.payload

/-- `layout(F)` of R88. -/
def frameLayout (p : Params) : Frame → List Byte
  | .headerOnly h => headerLayout p h false
  | .command f => commandLayout p f

/-- The words of a well-formed instruction. -/
def encode (p : Params) : Instr → Encoded
  | .token h => .wire (headerLayout p h false)
  | .solicitSuccessorRequest h d => .wire (commandLayout p ⟨h, 1#4, d⟩)
  | .solicitSuccessorResponse h d => .wire (commandLayout p ⟨h, 2#4, d⟩)
  | .getAddressRequest h d => .wire (commandLayout p ⟨h, 3#4, d⟩)
  | .getAddressResponse h d => .wire (commandLayout p ⟨h, 4#4, d⟩)
  | .setDeviceAddressRequest h d => .wire (commandLayout p ⟨h, 5#4, d⟩)
  | .setDeviceAddressResponse h d => .wire (commandLayout p ⟨h, 6#4, d⟩)
  | .setSuccessorAddressRequest h d => .wire (commandLayout p ⟨h, 7#4, d⟩)
  | .setSuccessorAddressResponse h d => .wire (commandLayout p ⟨h, 8#4, d⟩)
  | .request h d => .wire (commandLayout p ⟨h, 9#4, d⟩)
  | .response h d => .wire (commandLayout p ⟨h, 10#4, d⟩)
  | .ack h d => .wire (commandLayout p ⟨h, 11#4, d⟩)
  | .busy h d => .wire (commandLayout p ⟨h, 12#4, d⟩)
  | .cmd0 h d => .wire (commandLayout p ⟨h, 0#4, d⟩)
  | .cmd13 h d => .wire (commandLayout p ⟨h, 13#4, d⟩)
  | .cmd14 h d => .wire (commandLayout p ⟨h, 14#4, d⟩)
  | .cmd15 h d => .wire (commandLayout p ⟨h, 15#4, d⟩)
  | .openDevice v => .host { hop := 0x00#8, device := v }
  | .start => .host { hop := 0x01#8 }
  | .enqueueFrame v => .host { hop := 0x02#8, frame := v }
  | .sendFrame v => .host { hop := 0x03#8, frame := v }
  | .getState => .host { hop := 0x04#8 }
  | .isReady => .host { hop := 0x05#8 }
  | .waitForCommandFrame => .host { hop := 0x06#8 }
  | .readCounters => .host { hop := 0x07#8 }
  | .waitForToken => .host { hop := 0x08#8 }
  | .encodeHeader v => .host { hop := 0x09#8, header := v }
  | .encodeCommandFrame v => .host { hop := 0x0A#8, command := v }
  | .decodeHeader v => .host { hop := 0x0B#8, bytes := v }
  | .decodeFrame v => .host { hop := 0x0C#8, bytes := v }
  | .readStatus => .host { hop := 0x0D#8 }
  | .reset => .host { hop := 0x0E#8 }

/-! ## The opcode table's words (R105) -/

/-- A row of spec/opcode_table.json: its width in whole bytes' bits, its mask and its match. -/
structure OpcodeRow where
  nbits : Nat
  mask : Nat
  matchBits : Nat
  deriving DecidableEq, Repr

/-- The row of a frame kind of code `c`: `mask = 0x0100F0`, `match = 0x010000 | (cmd << 4)` (R105). -/
def commandRow (c : Nat) : OpcodeRow := ⟨24, 0x0100F0, 0x010000 ||| (c <<< 4)⟩

/-- The row of a host operation (R276). -/
def hostRow (hop : Nat) : OpcodeRow := ⟨8, 0xFF, hop⟩

/-- The row of spec/opcode_table.json an instruction stands for. -/
def Instr.row : Instr → OpcodeRow
  | .token _ => ⟨16, 0x0100, 0x0000⟩
  | .solicitSuccessorRequest _ _ => commandRow 1
  | .solicitSuccessorResponse _ _ => commandRow 2
  | .getAddressRequest _ _ => commandRow 3
  | .getAddressResponse _ _ => commandRow 4
  | .setDeviceAddressRequest _ _ => commandRow 5
  | .setDeviceAddressResponse _ _ => commandRow 6
  | .setSuccessorAddressRequest _ _ => commandRow 7
  | .setSuccessorAddressResponse _ _ => commandRow 8
  | .request _ _ => commandRow 9
  | .response _ _ => commandRow 10
  | .ack _ _ => commandRow 11
  | .busy _ _ => commandRow 12
  | .cmd0 _ _ => commandRow 0
  | .cmd13 _ _ => commandRow 13
  | .cmd14 _ _ => commandRow 14
  | .cmd15 _ _ => commandRow 15
  | .openDevice _ => hostRow 0
  | .start => hostRow 1
  | .enqueueFrame _ => hostRow 2
  | .sendFrame _ => hostRow 3
  | .getState => hostRow 4
  | .isReady => hostRow 5
  | .waitForCommandFrame => hostRow 6
  | .readCounters => hostRow 7
  | .waitForToken => hostRow 8
  | .encodeHeader _ => hostRow 9
  | .encodeCommandFrame _ => hostRow 10
  | .decodeHeader _ => hostRow 11
  | .decodeFrame _ => hostRow 12
  | .readStatus => hostRow 13
  | .reset => hostRow 14

/-- The word the table matches on: `W16` or `W24` of the un-stuffed header, or the HOP (R105). -/
def Encoded.tableWord : Encoded → Nat
  | .wire [_, b1, b2] => (b1.toNat <<< 8) ||| b2.toNat
  | .wire (_ :: b1 :: b2 :: b3 :: _) => (b1.toNat <<< 16) ||| (b2.toNat <<< 8) ||| b3.toNat
  | .wire _ => 0
  | .host r => r.hop.toNat

/-- The bytes or the request that a table word of `nbits` bits stands for, everything above those bits zero: 8 bits
are a HOP, 16 bits a `W16`, 24 bits a `W24` whose payload bytes are zero (R105; log entry 25). -/
def encodedOfTableWord (p : Params) (nbits w : Nat) : Encoded :=
  if nbits ≤ 8 then .host { hop := BitVec.ofNat 8 w }
  else if nbits ≤ 16 then
    .wire ([p.marker, BitVec.ofNat 8 (w >>> 8), BitVec.ofNat 8 w] ++ if w.testBit 8 then [0x00#8] else [])
  else
    .wire ([p.marker, BitVec.ofNat 8 (w >>> 16), BitVec.ofNat 8 (w >>> 8), BitVec.ofNat 8 w] ++
      List.replicate (w % 16) 0x00#8)

/-- The instruction the decoder reads from a table word, under the spec's default profile. -/
def decodeTableWord (nbits w : Nat) : Option Instr :=
  match decode Params.profile (encodedOfTableWord Params.profile nbits w) with
  | .ok i => some i
  | .error _ => none

end Sys2Proof
end

