-- ==== Sys2Proof/Machine/State.lean ====
section
/-! DEFINITION. The state of the block (spec/10_state.md), grouped by agent as the spec groups it, the faults and
refusals of a step, and the state after reset (spec/70_reset_and_hazards.md R321). -/

namespace Sys2Proof.Machine

open Sys2Proof

/-! ## Enumerations -/

/-- `RSTATE` (R20). -/
inductive RState
  | synchronizing
  | readingHeader
  | readingPacket
  | readingChecksum
  deriving DecidableEq, Repr

/-- `CSTATE` (R26, R32). -/
inductive CState
  | initial
  | sensing
  | broadcastingStationId
  | master
  | slaveWaitingToJoin
  | slaveJoining
  | slave
  | slaveWaitingForFirstToken
  | error
  deriving DecidableEq, Repr

/-- `MPHASE` (R34). -/
inductive MPhase
  | mIdle
  | mDrain
  | mSolicit
  | mWaitDevAck
  | mWaitSuccAck
  | mWaitPredAck
  deriving DecidableEq, Repr

/-- The kinds of the protocol timer (R36). -/
inductive TimerKind
  | sense
  | joinWin
  | resp
  | token
  | joinWait
  deriving DecidableEq, Repr

/-- The kinds of a TransportError (R293). -/
inductive TransportErrorKind
  | read
  | write
  deriving DecidableEq, Repr

/-- The causes of a StateError (R291, R298). -/
inductive ErrorCause
  | repeatedTimeouts
  | tokenLost
  | repeatedChecksum
  | duplicateStation
  | duplicateToken
  | secondMaster
  deriving DecidableEq, Repr

/-- The cause of a `LOG_OUT` record (R172): the rule that made the change, by the names the spec's programs use
(log entry 28). -/
inductive LogCause
  | start
  | recover
  | r185
  | r186
  | r240
  | r244
  | r247
  | stateError (cause : ErrorCause)
  | fatal (kind : TransportErrorKind)
  deriving DecidableEq, Repr

/-- A `LOG_OUT` record `(from, to, cause)` (R172). -/
structure LogRecord where
  fromState : CState
  toState : CState
  cause : LogCause
  deriving DecidableEq, Repr

/-- The kinds of a waiter (R51). -/
inductive WaiterKind
  | cmd
  | tok
  deriving DecidableEq, Repr

/-- An outstanding wait (R51). -/
structure Waiter where
  kind : WaiterKind
  fired : Bool
  deriving DecidableEq, Repr

/-- How a wait returns: `Ok` (its event came) or `Fatal` (the block stopped) (R267, R269). -/
inductive WaitReturn
  | ok
  | fatal
  deriving DecidableEq, Repr

/-! ## The host port's answers -/

/-- Host statuses (R276). -/
inductive HostStatus
  | ok
  | encodeError (field : EncodeField)
  | decodeError (kind : DecodeErrorKind)
  | queueFull
  | notOpen
  | badState
  | openFailed
  | fatal
  | badOp
  deriving DecidableEq, Repr

/-- The record of `readStatus` (R274). -/
structure StatusRecord where
  state : BitVec 4
  ownId : Option StationId
  successor : Option StationId
  lastError : BitVec 8
  tokenCount : Count
  rxCmdCount : Count
  queueLength : Nat
  persistFail : Bool
  fatal : Bool
  opened : Bool
  deriving DecidableEq, Repr

/-- What an operation returns beside its status. -/
inductive HostValue
  | none
  | stateCode (code : BitVec 4)
  | ready (b : Bool)
  | counters (framesOk framesIncomplete chkFails : Count)
  | bytes (bs : List Byte)
  | header (h : DecodedHeader)
  | frame (f : Frame)
  | statusRecord (r : StatusRecord)
  deriving DecidableEq, Repr

/-- One return from the host port: the operation's code, its status and its value (log entry 11). -/
structure HostReply where
  hop : Byte
  status : HostStatus
  value : HostValue
  deriving DecidableEq, Repr

/-! ## Events -/

/-- What can happen to the block: one entry of the schedule (R14, R170, R275, R301; log entry 7). -/
inductive Event
  /-- `readByte` returned a byte (R140). -/
  | rxByte (b : Byte)
  /-- `readByte(T_INTERBYTE)` returned nothing (R140). -/
  | rxIdle
  /-- The transport reported an I/O failure on reading (R140). -/
  | rxFail
  /-- The protocol timer of this kind expires (R176). -/
  | timeout (k : TimerKind)
  /-- The controller takes its Tenure step (R170, R187). -/
  | tenure
  /-- The controller takes its ErrorExit step (R170, R297). -/
  | errorExit
  /-- A caller issues a host operation (R275). -/
  | hostCall (r : HostRequest)
  /-- The return step of an outstanding wait (R267, R269). -/
  | waitReturn (w : Waiter) (ret : WaitReturn)
  /-- The host takes the next frame of `RX_OUT` (R72). -/
  | takeFrame
  /-- The transport's answers change: to the next `open`, and how many more bytes it accepts (log entry 9). -/
  | transport (openOk : Bool) (writeRoom : Option Nat)
  deriving DecidableEq, Repr

/-! ## State -/

/-- The receiver's registers (10_state.md section 2). -/
structure Receiver where
  rstate : RState
  escPending : Bool
  rbuf : Vector Byte 18
  rcount : BitVec 5
  rlen : BitVec 4
  rcrc : ChkReg
  rchk : List Byte
  framesOk : Count
  framesIncomplete : Count
  chkFails : Count
  deriving DecidableEq, Repr

/-- The controller's registers (10_state.md section 3). -/
structure Controller where
  cstate : CState
  ownId : Option StationId
  successor : Option StationId
  peer : Option StationId
  /-- Bit `i` is set for station `i` (R30). -/
  known : BitVec 64
  holdsToken : Bool
  mphase : MPhase
  pending : Option StationId
  pendingPred : Option StationId
  timer : Option TimerKind
  toCount : Count
  ckCount : Count
  errRetries : Count
  persistFail : Bool
  lastError : BitVec 8
  tokenCounter : Count
  rxCmdCounter : Count
  /-- The outgoing FIFO, head first (R43). -/
  txq : List CommandFrame
  deriving DecidableEq, Repr

/-- The output streams, oldest first: the spec's three (R50) and what the host operations returned (log entry 11). -/
structure Outputs where
  wireOut : List Byte
  rxOut : List ReceivedFrame
  logOut : List LogRecord
  replies : List HostReply
  deriving DecidableEq, Repr

/-- The environment of the block: the model's own fields (log entries 7, 9 and 26). -/
structure Environment where
  /-- The events to come, first one first. -/
  schedule : List Event
  /-- What the transport answers an `open` with (R260). -/
  openOk : Bool
  /-- How many more bytes the transport accepts before a write fails; `none`: no write fails (R173). -/
  writeRoom : Option Nat
  /-- How many frames of `RX_OUT` the host has taken (R72). -/
  rxRead : Nat
  deriving DecidableEq, Repr

/-- The state of one station's block. -/
structure State where
  params : Params
  rx : Receiver
  ctl : Controller
  fatal : Bool
  opened : Bool
  waiters : List Waiter
  out : Outputs
  env : Environment
  deriving DecidableEq, Repr

/-! ## Stops -/

/-- The faults of a step. Both stand for situations the spec calls unreachable, and an invariant of the model
excludes both. -/
inductive Fault
  /-- A rule read `CSTATE` and found BroadcastingStationId (R171: "must treat that as a fault"). Raised by every
  meaning and event that reads `CSTATE`. Safe: the block stops where the spec gives no behaviour. -/
  | unreachableState
  /-- A rule needs this block's station id, its successor or a non-empty ring, and the register is `none` in a state
  where the spec says it never is (R188, R197). Raised by the token pass, the tenure's drain and the ring
  functions. Safe: the block stops where the spec gives no behaviour. -/
  | missingRingId
  deriving DecidableEq, Repr

/-- The refusals of a step. -/
inductive Refusal
  /-- The instruction has no meaning in the model. Raised only by an arm of `exec`; no arm does so. Safe. -/
  | notModelled (mnemonic : String)
  deriving DecidableEq, Repr

/-- The outcome of a step of the block. -/
abbrev Result := Host.Outcome State Fault Refusal

/-! ## Reset -/

/-- The receiver's registers after reset (R321). `RBUF` is unspecified in the spec; the model's value is zero bytes
(log entry 12). -/
def Receiver.reset (p : Params) : Receiver where
  rstate := .synchronizing
  escPending := false
  rbuf := Vector.replicate 18 0x00#8
  rcount := 0#5
  rlen := 0#4
  rcrc := p.chkInit
  rchk := []
  framesOk := 0#32
  framesIncomplete := 0#32
  chkFails := 0#32

/-- The controller's registers after reset (R321). -/
def Controller.reset : Controller where
  cstate := .initial
  ownId := none
  successor := none
  peer := none
  known := 0#64
  holdsToken := false
  mphase := .mIdle
  pending := none
  pendingPred := none
  timer := none
  toCount := 0#32
  ckCount := 0#32
  errRetries := 0#32
  persistFail := false
  lastError := 0#8
  tokenCounter := 0#32
  rxCmdCounter := 0#32
  txq := []

/-- The block after power-on with the parameters `p`: the reset values (R321), empty histories, nothing scheduled, and
a transport that opens and writes (log entries 7 and 9). -/
def State.resetWith (p : Params) : State where
  params := p
  rx := Receiver.reset p
  ctl := Controller.reset
  fatal := false
  opened := false
  waiters := []
  out := { wireOut := [], rxOut := [], logOut := [], replies := [] }
  env := { schedule := [], openOk := true, writeRoom := none, rxRead := 0 }

/-- The machine right after reset: the default profile (R7, R8; log entries 4 and 5). -/
def State.reset : State := State.resetWith Params.profile

end Sys2Proof.Machine
end

