-- ==== Sys2Proof/Machine/Flags.lean ====
section
/-! DEFINITION. The derived predicates (spec/10_state.md R33, R45, R46; spec/42_arbitration.md R175, R181) and the numeric
codes (R32, R276, R291). The block has no condition codes. -/

namespace Sys2Proof.Machine

open Sys2Proof

/-! ## Codes -/

/-- The host port's code of a controller state (R32). -/
def CState.code : CState → BitVec 4
  | .initial => 0#4
  | .sensing => 1#4
  | .broadcastingStationId => 2#4
  | .master => 3#4
  | .slaveWaitingToJoin => 4#4
  | .slaveJoining => 5#4
  | .slave => 6#4
  | .slaveWaitingForFirstToken => 7#4
  | .error => 8#4

/-- `LAST_ERROR` codes 1 and 2 (R291). -/
def TransportErrorKind.code : TransportErrorKind → BitVec 8
  | .read => 1#8
  | .write => 2#8

/-- `LAST_ERROR` codes 3 to 8 (R291). -/
def ErrorCause.code : ErrorCause → BitVec 8
  | .repeatedTimeouts => 3#8
  | .tokenLost => 4#8
  | .repeatedChecksum => 5#8
  | .duplicateStation => 6#8
  | .duplicateToken => 7#8
  | .secondMaster => 8#8

/-- The numbers of the host statuses (R276). -/
def HostStatus.code : HostStatus → Nat
  | .ok => 0
  | .encodeError _ => 1
  | .decodeError _ => 2
  | .queueFull => 3
  | .notOpen => 4
  | .badState => 5
  | .openFailed => 6
  | .fatal => 7
  | .badOp => 8

/-! ## Derived predicates -/

/-- `WIRE_ID` (R33): the id a block uses on the wire. -/
def State.wireId (s : State) : StationId :=
  match s.ctl.ownId with
  | none => s.params.unassignedWireId
  | some i => i

/-- `isReady` (R45). -/
def State.ready (s : State) : Bool :=
  (decide (s.ctl.cstate = .master) || decide (s.ctl.cstate = .slave)) && !s.ctl.persistFail && !s.fatal

/-- Whether the receiver runs (R46), or `CSTATE` is the state that must not be found (R171). -/
inductive Activity
  | inactive
  | active
  | unreachable
  deriving DecidableEq, Repr

/-- `ACTIVE = (OPENED = 1) and (CSTATE != Initial) and (FATAL = 0)` (R46); reading BroadcastingStationId is the fault
of R171. -/
def State.activity (s : State) : Activity :=
  if s.fatal || !s.opened then .inactive
  else match s.ctl.cstate with
    | .initial => .inactive
    | .broadcastingStationId => .unreachable
    | _ => .active

/-- `FOR_ME(F) = (F.bc == 0 and F.dest == WIRE_ID)` (R175). -/
def forMe (h : Header) (s : State) : Bool := !h.bc && decide (h.dest = s.wireId)

/-- The source of a header is the station that an optional register names. -/
def fromStation (h : Header) (r : Option StationId) : Bool := decide (r = some h.src)

/-- `DUPLICATE(F)` (R181). -/
def duplicate (h : Header) (s : State) : Bool :=
  fromStation h s.ctl.ownId &&
  match s.ctl.cstate with
  | .master | .slave | .slaveWaitingForFirstToken | .slaveJoining => true
  | _ => false

/-- The frame is a command frame, `type = 1` (R86). -/
def isCommand : Frame → Bool
  | .headerOnly _ => false
  | .command _ => true

/-- The frame is a broadcast SolicitSuccessorRequest (R185). -/
def isBroadcastSolicit : Frame → Bool
  | .headerOnly _ => false
  | .command f => f.hdr.bc && decide (f.cmd = 0x1#4)

/-- `RX_OUT` is non-empty past the host's read point (R304). -/
def State.rxAvailable (s : State) : Bool := decide (s.env.rxRead < s.out.rxOut.length)

/-- The Tenure step is enabled (R170). -/
def State.tenureEnabled (s : State) : Bool :=
  !s.fatal && s.ctl.holdsToken &&
  ((decide (s.ctl.cstate = .master) && decide (s.ctl.mphase = .mDrain)) || decide (s.ctl.cstate = .slave))

/-- The ErrorExit step is enabled (R170, R297). -/
def State.errorExitEnabled (s : State) : Bool :=
  !s.fatal && decide (s.ctl.cstate = .error) && !s.ctl.persistFail

/-- `Timeout(k)` is admitted (R176). -/
def State.timeoutEnabled (k : TimerKind) (s : State) : Bool := !s.fatal && decide (s.ctl.timer = some k)

/-- The return step of the waiter `w` is enabled (R267, R269). -/
def State.returnEnabled (w : Waiter) (ret : WaitReturn) (s : State) : Bool :=
  s.waiters.contains w &&
  match ret with
  | .ok => w.fired
  | .fatal => s.fatal

end Sys2Proof.Machine
end

