-- ==== Sys2Proof/Machine/Operands.lean ====
section
/-! DEFINITION. The operand forms: the checks on a host's header and frames (spec/30_encoding.md R102, spec/44_host_interface.md
R262, spec/40_codec.md R111, R112), a station id in a payload (R101), and the ring functions (spec/42_arbitration.md R197,
R198). -/

namespace Sys2Proof.Machine

open Sys2Proof

/-! ## Host operands -/

/-- The first field of a header that exceeds its width, in the order R111 names them (log entry 17). -/
def headerError (h : HostHeader) : Option EncodeField :=
  if h.dest > 63 then some .dest
  else if h.src > 63 then some .src
  else if h.ctr > 3 then some .ctr
  else if h.bc > 1 then some .bc
  else if h.type > 1 then some .type
  else none

/-- The first of code, length and payload bytes that R112 refuses. -/
def bodyError (cmd : Nat) (payload : List Nat) : Option EncodeField :=
  if cmd > 15 then some .cmd
  else if payload.length > 15 then some .length
  else if payload.any (fun b => decide (b > 255)) then some .payload
  else none

/-- The error of `encodeCommandFrame` (R112): code, length and payload before the header (log entry 17). -/
def commandError (c : HostCommand) : Option EncodeField :=
  match bodyError c.cmd c.payload with
  | some e => some e
  | none => headerError ⟨c.dest, c.bc, 1, c.src, c.ctr⟩

/-- The first failing condition of `VALID_HOST_FRAME`, in the order dest, src, ctr, bc, type, cmd, payload length,
payload bytes (R102, R262); `none`: the frame is valid. -/
def hostFrameError (f : HostFrame) : Option EncodeField :=
  if f.dest > 63 then some .dest
  else if f.src > 63 then some .src
  else if f.ctr > 3 then some .ctr
  else if f.bc > 1 then some .bc
  else if f.type ≠ 1 then some .type
  else bodyError f.cmd f.payload

/-- The header fields of a checked operand, as the bits of the wire. -/
def headerOfHost (dest bc src ctr : Nat) : Header :=
  ⟨BitVec.ofNat 6 dest, decide (bc = 1), BitVec.ofNat 6 src, BitVec.ofNat 2 ctr⟩

/-- The command frame of a checked frame operand (R263). -/
def frameOfHost (f : HostFrame) : CommandFrame :=
  ⟨headerOfHost f.dest f.bc f.src f.ctr, BitVec.ofNat 4 f.cmd, f.payload.map (BitVec.ofNat 8)⟩

/-- The command frame of a checked command operand (R112). -/
def frameOfCommand (c : HostCommand) : CommandFrame :=
  ⟨headerOfHost c.dest c.bc c.src c.ctr, BitVec.ofNat 4 c.cmd, c.payload.map (BitVec.ofNat 8)⟩

/-! ## Station ids in payloads -/

/-- The station id in `payload[0]`: bits 5..0, and the byte must not exceed 63 (R101). Bytes after it are ignored. -/
def stationOperand : List Byte → Option StationId
  | [] => none
  | b :: _ => if b.toNat ≤ 63 then some (b.setWidth 6) else none

/-- The payload `[id]` (R101). -/
def stationPayload (i : StationId) : List Byte := [i.setWidth 8]

/-! ## Ring arithmetic -/

/-- The station ids 0 to 63, ascending (R61). -/
def stationIds : List StationId := (List.range 64).map (BitVec.ofNat 6)

/-- Station `i` is in the set. -/
def member (set : BitVec 64) (i : StationId) : Bool := set.getLsbD i.toNat

/-- The set with station `i` added. -/
def insertId (set : BitVec 64) (i : StationId) : BitVec 64 := set ||| (1#64 <<< i.toNat)

/-- `S = KNOWN ∪ {OWN_ID}` (R197). -/
def State.ring (s : State) : BitVec 64 :=
  match s.ctl.ownId with
  | none => s.ctl.known
  | some i => insertId s.ctl.known i

/-- `RING_SUCC(x, S)`: the least member above `x`, else the least member (R197); `none` only for the empty set. -/
def ringSucc (x : StationId) (set : BitVec 64) : Option StationId :=
  match stationIds.find? (fun y => member set y && decide (x.toNat < y.toNat)) with
  | some y => some y
  | none => stationIds.find? (member set)

/-- `RING_PRED(x, S)`: the greatest member below `x`, else the greatest member (R197); `none` only for the empty set. -/
def ringPred (x : StationId) (set : BitVec 64) : Option StationId :=
  match stationIds.reverse.find? (fun y => member set y && decide (y.toNat < x.toNat)) with
  | some y => some y
  | none => stationIds.reverse.find? (member set)

/-- `ASSIGN_ID()` (R198): the lowest id that is not this block's, not known and not the unassigned wire id. -/
def State.assignId (s : State) : Option StationId :=
  stationIds.find? (fun n =>
    decide (s.ctl.ownId ≠ some n) && !member s.ctl.known n && decide (n ≠ s.params.unassignedWireId))

end Sys2Proof.Machine
end

