-- ==== Sys2Proof/Machine/Codec.lean ====
section
/-! DEFINITION. The frame codec (spec/40_codec.md): the host's encoders, the checksum, the stuffing and its inverse. Every function
is pure (R110). -/

namespace Sys2Proof.Machine

open Sys2Proof

/-! ## Encoders (R111, R112) -/

/-- `encodeHeader(h)` (R111): no checksum, no stuffing (R113). -/
def encodeHeaderBytes (p : Params) (h : HostHeader) : Except EncodeField (List Byte) :=
  match headerError h with
  | some e => .error e
  | none => .ok (headerLayout p (headerOfHost h.dest h.bc h.src h.ctr) (decide (h.type = 1)))

/-- `encodeCommandFrame(F)` (R112): no checksum, no stuffing (R113). -/
def encodeCommandBytes (p : Params) (c : HostCommand) : Except EncodeField (List Byte) :=
  match commandError c with
  | some e => .error e
  | none => .ok (commandLayout p (frameOfCommand c))

/-! ## Checksum (R88, R114, R117) -/

/-- One of the eight shifts of a CRC that shifts right (R117). -/
def reflectedShift (poly c : ChkReg) : ChkReg :=
  if c.getLsbD 0 then (c >>> 1) ^^^ poly else c >>> 1

/-- One byte through a CRC that shifts right (R117). -/
def reflectedStep (poly c : ChkReg) (b : Byte) : ChkReg := Nat.repeat (reflectedShift poly) 8 (c ^^^ b.setWidth 16)

/-- The default `CHK_STEP`: CRC-16 reflected, polynomial 0x8408 (R117). -/
def kermitStep (c : ChkReg) (b : Byte) : ChkReg := reflectedStep 0x8408#16 c b

/-- One of the eight shifts of a CRC that shifts left, in a register of the width. -/
def forwardShift (w : ChkWidth) (poly c : ChkReg) : ChkReg :=
  if c.getLsbD (8 * w.bytes - 1) then (c <<< 1) ^^^ poly else c <<< 1

/-- One byte through a CRC that shifts left: the byte enters at the register's top. -/
def forwardStep (w : ChkWidth) (poly c : ChkReg) (b : Byte) : ChkReg :=
  Nat.repeat (forwardShift w poly) 8 (c ^^^ (b.setWidth 16 <<< (8 * w.bytes - 8)))

/-- A checksum value has `CHK_WIDTH` bits (R125). -/
def chkTrunc (p : Params) (c : ChkReg) : ChkReg :=
  match p.chkWidth with
  | .w8 => c &&& 0x00FF#16
  | .w16 => c

/-- `CHK_STEP(c, b)`, the function the parameter names (R7), cut to `CHK_WIDTH` bits (R125). -/
def chkStep (p : Params) (c : ChkReg) (b : Byte) : ChkReg :=
  chkTrunc p (match p.chkStepFn with
    | .crcReflected poly => reflectedStep poly c b
    | .crcForward poly => forwardStep p.chkWidth poly c b
    | .table values => values.getD (256 * c.toNat + b.toNat) 0#16)

/-- `CHK_FINAL(c)`, the function the parameter names (R7); the default is the identity. -/
def chkFinal (p : Params) (c : ChkReg) : ChkReg :=
  chkTrunc p (match p.chkFinalFn with
    | .xorWith mask => c ^^^ mask
    | .table values => values.getD c.toNat 0#16)

/-- `covered(F)` (R88): the layout, with or without the marker. -/
def covered (p : Params) (layout : List Byte) : List Byte :=
  if p.chkCoversMarker then layout else layout.drop 1

/-- `checksum(layout)` (R114). -/
def checksum (p : Params) (layout : List Byte) : ChkReg :=
  chkFinal p ((covered p layout).foldl (chkStep p) p.chkInit)

/-- `chkBytes(c)` (R114). -/
def chkBytes (p : Params) (c : ChkReg) : List Byte :=
  match p.chkWidth, p.chkOrder with
  | .w8, _ => [c.setWidth 8]
  | .w16, .lsbFirst => [c.setWidth 8, (c >>> 8).setWidth 8]
  | .w16, .msbFirst => [(c >>> 8).setWidth 8, c.setWidth 8]

/-- The received checksum from its bytes (R148): `assemble_lsb_first` or `assemble_msb_first`. -/
def assemble (p : Params) (bs : List Byte) : ChkReg :=
  match p.chkOrder with
  | .lsbFirst => bs.foldr (fun b acc => (acc <<< 8) ||| b.setWidth 16) 0#16
  | .msbFirst => bs.foldl (fun acc b => (acc <<< 8) ||| b.setWidth 16) 0#16

/-- `raw(F)` (R88): the layout and its checksum bytes. -/
def rawImage (p : Params) (layout : List Byte) : List Byte := layout ++ chkBytes p (checksum p layout)

/-! ## Stuffing (R89, R90, R115, R116, R122) -/

/-- `ESC_ENC(b)`, for `b` the marker or the escape byte (R7; log entry 2). -/
def escEnc (p : Params) (b : Byte) : Byte := if b = p.marker then p.markerLit else p.escLit

/-- `x` is `ESC_ENC(MARKER)` or `ESC_ENC(ESC)` (R144, R145). -/
def isEscLiteral (p : Params) (x : Byte) : Bool := decide (x = p.markerLit) || decide (x = p.escLit)

/-- `ESC_DEC(x)`, for `x` one of the two literals (R7; log entry 2). -/
def escDec (p : Params) (x : Byte) : Byte := if x = p.markerLit then p.marker else p.esc

/-- `stuff(b)` (R89, R115). -/
def stuff (p : Params) (b : Byte) : List Byte :=
  if b = p.marker ∨ b = p.esc then [p.esc, escEnc p b] else [b]

/-- `wireImage(layout)` (R116): the frame as sent; byte 0 is not stuffed. -/
def wireImage (p : Params) (layout : List Byte) : List Byte :=
  p.marker :: ((rawImage p layout).drop 1).flatMap (stuff p)

/-- The body loop of `unstuff` (R122). -/
def unstuffBody (p : Params) : List Byte → Except FramingErrorKind (List Byte)
  | [] => .ok []
  | b :: rest =>
    if b = p.marker then .error .rawMarker
    else if b = p.esc then
      match rest with
      | [] => .error .truncated
      | x :: rest' =>
        if isEscLiteral p x then
          match unstuffBody p rest' with
          | .ok out => .ok (escDec p x :: out)
          | .error k => .error k
        else .error .escapeViolation
    else
      match unstuffBody p rest with
      | .ok out => .ok (b :: out)
      | .error k => .error k

/-- `unstuff(bytes)` (R122); `none` outside its domain (`require bytes[0] == MARKER`). -/
def unstuff (p : Params) (bs : List Byte) : Option (Except FramingErrorKind (List Byte)) :=
  match bs with
  | [] => none
  | b :: body =>
    if b = p.marker then
      some (match unstuffBody p body with
        | .ok out => .ok (p.marker :: out)
        | .error k => .error k)
    else none

end Sys2Proof.Machine
end

