-- ==== Sys2Proof/Machine/Ops.lean ====
section
/-! DEFINITION. The named operations over the state: the streams, the timer, the transmit engine (spec/42_arbitration.md R173,
R174), the entry into the Error state and the fatal stop (spec/60_exceptions.md R293, R296), the entry into Sensing (R184), and
the token operations (R188, R192). -/

namespace Sys2Proof.Machine

open Sys2Proof

/-! ## The flow of a controller step -/

/-- How far a step has come: it goes on, it has ended (a TransportError or an ENTER_ERROR: "the rest of the step is not
performed", R302), or the machine has met a situation the spec calls unreachable. -/
inductive Flow
  | go (s : State)
  | ended (s : State)
  | fault (r : Fault)

/-- What comes next in the step, if it goes on (R302). -/
def Flow.bind (m : Flow) (k : State → Flow) : Flow :=
  match m with
  | .go s => k s
  | .ended s => .ended s
  | .fault r => .fault r

/-- The outcome of the whole step. -/
def Flow.outcome : Flow → Result
  | .go s => .next s
  | .ended s => .next s
  | .fault r => .fault r

/-! ## Streams, timer, waiters -/

/-- `WireWrite(bs)` (R12). -/
def State.wireWrite (bs : List Byte) (s : State) : State :=
  { s with out := { s.out with wireOut := s.out.wireOut ++ bs } }

/-- `Emit(RX_OUT, r)` (R12, R179). -/
def State.emitRx (r : ReceivedFrame) (s : State) : State :=
  { s with out := { s.out with rxOut := s.out.rxOut ++ [r] } }

/-- `Emit(LOG_OUT, (from, to, cause))` (R12, R172). -/
def State.emitLog (fromState toState : CState) (cause : LogCause) (s : State) : State :=
  { s with out := { s.out with logOut := s.out.logOut ++ [⟨fromState, toState, cause⟩] } }

/-- A return from the host port (R276; log entry 11). -/
def State.reply (hop : Byte) (status : HostStatus) (value : HostValue) (s : State) : State :=
  { s with out := { s.out with replies := s.out.replies ++ [⟨hop, status, value⟩] } }

/-- `CSTATE <- c`, with its log record (R172). -/
def State.setCState (c : CState) (cause : LogCause) (s : State) : State :=
  let s' := s.emitLog s.ctl.cstate c cause
  { s' with ctl := { s'.ctl with cstate := c } }

/-- `arm(k)` (R12, R176). -/
def State.arm (k : TimerKind) (s : State) : State := { s with ctl := { s.ctl with timer := some k } }

/-- `disarm()` (R12, R176). -/
def State.disarm (s : State) : State := { s with ctl := { s.ctl with timer := none } }

/-- `fired <- 1` in every waiter of one kind (R51). -/
def fireWaiters (k : WaiterKind) (ws : List Waiter) : List Waiter :=
  ws.map (fun w => if w.kind = k then { w with fired := true } else w)

/-- `RX_CMD_COUNTER <- RX_CMD_COUNTER + 1`, firing the CMD waiters (R42, R51, R267). -/
def State.countCommand (s : State) : State :=
  { s with ctl := { s.ctl with rxCmdCounter := s.ctl.rxCmdCounter + 1#32 }, waiters := fireWaiters .cmd s.waiters }

/-- `TOKEN_COUNTER <- TOKEN_COUNTER + 1`, firing the TOK waiters (R41, R51, R269). -/
def State.countToken (s : State) : State :=
  { s with ctl := { s.ctl with tokenCounter := s.ctl.tokenCounter + 1#32 }, waiters := fireWaiters .tok s.waiters }

/-! ## Errors -/

/-- `TransportError(kind)` (R293): the block stops. -/
def transportError (kind : TransportErrorKind) (s : State) : State :=
  let s' := s.emitLog s.ctl.cstate s.ctl.cstate (.fatal kind)
  { s' with fatal := true, ctl := { s'.ctl with lastError := kind.code } }

/-- What Error entry and Sensing entry both clear: the role and ring state (R184, R296). -/
def clearRole (c : Controller) : Controller :=
  { c with
    ownId := none, successor := none, peer := none, known := 0#64, holdsToken := false
    mphase := .mIdle, pending := none, pendingPred := none, toCount := 0#32, ckCount := 0#32 }

/-- `ENTER_ERROR(cause)` (R296): the block's nearest thing to taking an exception. It saves nothing. -/
def enterError (cause : ErrorCause) (s : State) : State :=
  let s' := s.setCState .error (.stateError cause)
  let retries := s'.ctl.errRetries + 1#32
  { s' with
    ctl :=
      { clearRole s'.ctl with
        lastError := cause.code
        errRetries := retries
        timer := none
        persistFail := s'.ctl.persistFail || decide (retries.toNat > s'.params.nRetry) } }

/-- `ENTER_SENSING()` (R184), with the log cause of its caller (R183: Start; R297: Recover). -/
def enterSensing (cause : LogCause) (s : State) : State :=
  let s' := s.setCState .sensing cause
  { s' with ctl := { clearRole s'.ctl with timer := some .sense } }

/-- The return from Error (R297): Sensing anew, nothing restored. -/
def errorExit (s : State) : State := enterSensing .recover s

/-- `PROTOCOL_TIMEOUT()` (R178): count, and either enter Error, ending the step, or go on with the caller's rule. -/
def protocolTimeout (s : State) (k : State → Flow) : Flow :=
  let s' := { s with ctl := { s.ctl with toCount := s.ctl.toCount + 1#32 } }
  if s'.ctl.toCount.toNat ≥ s'.params.nTimeout then .ended (enterError .repeatedTimeouts s') else k s'

/-! ## Transmit engine -/

/-- `TRANSMIT(layout)` (R173): the bytes the transport accepts go on `WIRE_OUT`; a failing write ends the step. -/
def transmit (layout : List Byte) (s : State) : Flow :=
  let w := wireImage s.params layout
  match s.env.writeRoom with
  | none => .go (s.wireWrite w)
  | some room =>
    if w.length ≤ room then
      let s' := s.wireWrite w
      .go { s' with env := { s'.env with writeRoom := some (room - w.length) } }
    else
      let s' := s.wireWrite (w.take room)
      .ended (transportError .write { s' with env := { s'.env with writeRoom := some 0 } })

/-- The frame `SEND` builds (R174): `src` is the wire id, `ctr` is 0. -/
def ownFrame (cmd : BitVec 4) (dest : StationId) (bc : Bool) (payload : List Byte) (s : State) : CommandFrame :=
  ⟨⟨dest, bc, s.wireId, 0#2⟩, cmd, payload⟩

/-- `SEND(cmd, dest, bc, payload)` (R174). -/
def send (cmd : BitVec 4) (dest : StationId) (bc : Bool) (payload : List Byte) (s : State) : Flow :=
  transmit (commandLayout s.params (ownFrame cmd dest bc payload s)) s

/-- `SEND_TOKEN(dest)` (R174). -/
def sendToken (dest : StationId) (s : State) : Flow :=
  transmit (headerLayout s.params ⟨dest, false, s.wireId, 0#2⟩ false) s

/-! ## The token -/

/-- `HOLDS_TOKEN <- 1; TOKEN_COUNTER <- TOKEN_COUNTER + 1; TO_COUNT <- 0; disarm()` (R192, R240). -/
def takeToken (s : State) : State :=
  let s' := s.countToken
  { s' with ctl := { s'.ctl with holdsToken := true, toCount := 0#32, timer := none } }

/-- A master takes the token: `takeToken` and `MPHASE <- MDrain` (R192, R240). -/
def takeTokenAsMaster (s : State) : State :=
  let s' := takeToken s
  { s' with ctl := { s'.ctl with mphase := .mDrain } }

/-- `HOLDS_TOKEN <- 0` (R188). -/
def dropToken (s : State) : State := { s with ctl := { s.ctl with holdsToken := false } }

/-- `PASS_TOKEN()` (R188), with the lone master's retake (R192). `SUCCESSOR` is never `none` where a rule passes the
token; finding it so is a fault (log entry 16). -/
def passToken (s : State) : Flow :=
  let s' := dropToken s
  if s'.ctl.successor = s'.ctl.ownId then .go (takeTokenAsMaster s')
  else match s'.ctl.successor with
    | none => .fault .missingRingId
    | some dest =>
      (sendToken dest s').bind fun t =>
        let t' := t.arm .token
        if t'.ctl.cstate = .master then
          .go { t' with ctl := { t'.ctl with mphase := .mIdle, pending := none, pendingPred := none } }
        else .go t'

end Sys2Proof.Machine
end

