-- ==== Sys2Proof/Machine/Arbitration.lean ====
section
/-! DEFINITION. The arbitration controller (spec/42_arbitration.md): the handling of a valid frame (R179, R185), the checksum
failure (R180), the timer expiries (R186, R190 to R196) and the tenure step (R187, R189). The rules of the frame kinds are
in Frames.lean. -/

namespace Sys2Proof.Machine

open Sys2Proof

/-! ## Frame and checksum events -/

/-- A joiner answers a solicit: the SlaveWaitingToJoin case of R241. -/
def answerSolicit (h : Header) (s : State) : Flow :=
  if h.bc = true ∧ s.ctl.peer = none then
    let s' := { s with ctl := { s.ctl with peer := some h.src } }
    (send 0x3#4 h.src false [] s').bind fun t => .go (t.arm .resp)
  else .go s

/-- Sensing sees traffic (R185). -/
def sensingTraffic (f : Frame) (s : State) : Flow :=
  let s' := s.setCState .slaveWaitingToJoin .r185
  let t := { s' with ctl := { s'.ctl with peer := none, timer := some .joinWait } }
  if isBroadcastSolicit f then answerSolicit f.hdr t else .go t

/-- The first three lines of R179: every valid frame goes to `RX_OUT`, stamped before any change, and is counted. -/
def recordFrame (f : Frame) (s : State) : State :=
  let s' := s.emitRx ⟨f, s.ctl.tokenCounter⟩
  let t := { s' with ctl := { s'.ctl with ckCount := 0#32 } }
  if isCommand f then t.countCommand else t

/-- What the controller does with a frame after recording it (R179): nothing in Error, R185 in Sensing, the duplicate
check, then the rule of the frame's kind. -/
def dispatchFrame (f : Frame) (kindRule : State → Flow) (s : State) : Flow :=
  match s.ctl.cstate with
  | .error => .go s
  | .sensing => sensingTraffic f s
  | _ => if duplicate f.hdr s then .ended (enterError .duplicateStation s) else kindRule s

/-- A valid frame from the receiver (R179). While the receiver is inactive no frame is seen (R46, R140; log entry 14). -/
def deliver (f : Frame) (kindRule : State → Flow) (s : State) : Result :=
  match s.activity with
  | .inactive => .next s
  | .unreachable => .fault .unreachableState
  | .active => (dispatchFrame f kindRule (recordFrame f s)).outcome

/-- A checksum failure from the receiver (R180). -/
def checksumFail (s : State) : State :=
  match s.ctl.cstate with
  | .sensing | .slaveWaitingToJoin | .slaveJoining | .slaveWaitingForFirstToken | .slave | .master =>
    let s' := { s with ctl := { s.ctl with ckCount := s.ctl.ckCount + 1#32 } }
    if s'.ctl.ckCount.toNat ≥ s'.params.nChkFail then enterError .repeatedChecksum s' else s'
  | _ => s

/-! ## Timeouts -/

/-- Self-election (R186). -/
def selfElect (s : State) : State :=
  let s' := (s.setCState .master .r186).countToken
  { s' with
    ctl :=
      { s'.ctl with
        ownId := some s'.params.masterStationId
        successor := some s'.params.masterStationId
        known := 0#64
        holdsToken := true
        mphase := .mDrain
        errRetries := 0#32
        toCount := 0#32
        timer := none } }

/-- The master abandons a join (R190). -/
def abandonJoin (s : State) : Flow :=
  let s' := { s with ctl := { s.ctl with pending := none, pendingPred := none } }
  protocolTimeout s' passToken

/-- A joiner saw no solicit (R193). -/
def joinWaitExpired (s : State) : Flow := protocolTimeout s fun t => .go (t.arm .joinWait)

/-- A joiner got no GetAddressResponse (R194). -/
def joinReplyExpired (s : State) : Flow :=
  let s' := { s with ctl := { s.ctl with peer := none } }
  protocolTimeout s' fun t => .go (t.arm .joinWait)

/-- The dialogue stalled in SlaveJoining (R195). -/
def joiningExpired (s : State) : Flow := protocolTimeout s fun t => .go (t.arm .resp)

/-- The token is lost (R196). -/
def tokenLost (s : State) : Flow := .ended (enterError .tokenLost s)

/-- The rule for `(CSTATE, k)` (R176), after `TIMER <- none`. A pair no rule names changes nothing more (log entry 27). -/
def timeoutRule (k : TimerKind) (s : State) : Flow :=
  match s.ctl.cstate, k with
  | .broadcastingStationId, _ => .fault .unreachableState
  | .sensing, .sense => .go (selfElect s)
  | .slaveWaitingToJoin, .joinWait => joinWaitExpired s
  | .slaveWaitingToJoin, .resp => joinReplyExpired s
  | .slaveJoining, .resp => joiningExpired s
  | .slave, .token => tokenLost s
  | .slaveWaitingForFirstToken, .token => tokenLost s
  | .master, .token =>
    match s.ctl.mphase with
    | .mIdle => tokenLost s
    | _ => .go s
  | .master, .joinWin =>
    match s.ctl.mphase with
    | .mSolicit => passToken s
    | _ => .go s
  | .master, .resp =>
    match s.ctl.mphase with
    | .mWaitDevAck | .mWaitSuccAck | .mWaitPredAck => abandonJoin s
    | _ => .go s
  | _, _ => .go s

/-- `Timeout(k)` (R176): `TIMER <- none` first, then the rule. -/
def timeoutStep (k : TimerKind) (s : State) : Flow := timeoutRule k s.disarm

/-! ## Tenure -/

/-- The drain loop of R187 over the queue's frames, at most `budget` of them. The queue's tail is written before each
frame is sent, so a failing write has removed the frame it was sending (R302). `F.src <- OWN_ID` (R99): a block that
holds the token has an id; finding none is a fault (log entry 16). -/
def drainQueue (own : Option StationId) : List CommandFrame → Option Nat → State → Flow
  | [], _, s => .go s
  | f :: rest, budget, s =>
    if budget = some 0 then .go s
    else
      match own with
      | none => .fault .missingRingId
      | some i =>
        let s' := { s with ctl := { s.ctl with txq := rest } }
        (transmit (commandLayout s'.params { f with hdr := { f.hdr with src := i } }) s').bind fun t =>
          drainQueue own rest (budget.map (· - 1)) t

/-- The master's solicit (R189). -/
def masterSolicit (s : State) : Flow :=
  (send 0x1#4 0#6 true [] s).bind fun t =>
    .go { t with ctl := { t.ctl with mphase := .mSolicit, timer := some .joinWin } }

/-- The Tenure step (R187). -/
def tenureStep (s : State) : Flow :=
  (drainQueue s.ctl.ownId s.ctl.txq s.params.maxTxPerToken s).bind fun t =>
    if t.ctl.cstate = .master then masterSolicit t else passToken t

end Sys2Proof.Machine
end

