-- ==== Sys2Proof/Machine/Frames.lean ====
section
/-! DEFINITION. The frame kinds (spec/43_frame_commands.md R240 to R253): the rule of each kind, and the meaning of each frame-kind
row of the opcode table, which is R179 with that rule. A state that a rule does not name ignores the frame (R182). -/

namespace Sys2Proof.Machine

open Sys2Proof

/-! ## The rules of the kinds -/

/-- Token (R240). -/
def tokenRule (h : Header) (s : State) : Flow :=
  if forMe h s then
    match s.ctl.cstate with
    | .master =>
      match s.ctl.mphase with
      | .mIdle => .go (takeTokenAsMaster s)
      | _ => .ended (enterError .duplicateToken s)
    | .slave =>
      if s.ctl.holdsToken then .ended (enterError .duplicateToken s) else .go (takeToken s)
    | .slaveWaitingForFirstToken =>
      let s' := s.countToken
      let t := { s' with ctl := { s'.ctl with toCount := 0#32, errRetries := 0#32 } }
      passToken (t.setCState .slave .r240)
    | _ => .go s
  else .go s

/-- SolicitSuccessorRequest (R241). -/
def solicitRule (h : Header) (s : State) : Flow :=
  match s.ctl.cstate with
  | .slaveWaitingToJoin => answerSolicit h s
  | .master => .ended (enterError .secondMaster s)
  | _ => .go s

/-- GetAddressRequest (R243): the master offers the lowest free id. -/
def getAddressRule (h : Header) (s : State) : Flow :=
  if s.ctl.cstate = .master ∧ s.ctl.mphase = .mSolicit ∧ forMe h s then
    match s.assignId with
    | none => .go s
    | some n =>
      let s' := { s with ctl := { s.ctl with pending := some n } }
      (send 0x4#4 s'.params.unassignedWireId false [] s').bind fun t =>
        (send 0x5#4 t.params.unassignedWireId false (stationPayload n) t).bind fun u =>
          .go { u with ctl := { u.ctl with mphase := .mWaitDevAck, toCount := 0#32, timer := some .resp } }
  else .go s

/-- GetAddressResponse (R244). -/
def addressOfferedRule (h : Header) (s : State) : Flow :=
  if s.ctl.cstate = .slaveWaitingToJoin ∧ forMe h s ∧ fromStation h s.ctl.peer then
    let s' := s.setCState .slaveJoining .r244
    .go { s' with ctl := { s'.ctl with toCount := 0#32, timer := some .resp } }
  else .go s

/-- SetDeviceAddressRequest (R245). -/
def setAddressRule (h : Header) (payload : List Byte) (s : State) : Flow :=
  match stationOperand payload with
  | none => .go s
  | some i =>
    if s.ctl.cstate = .slaveJoining ∧ s.ctl.ownId = none ∧ forMe h s ∧ fromStation h s.ctl.peer ∧
        i ≠ s.params.unassignedWireId ∧ s.ctl.peer ≠ some i then
      let s' := { s with ctl := { s.ctl with ownId := some i } }
      (send 0x6#4 h.src false (stationPayload i) s').bind fun t =>
        .go { t with ctl := { t.ctl with toCount := 0#32, timer := some .resp } }
    else .go s

/-- SetDeviceAddressResponse (R246). -/
def addressSetRule (h : Header) (s : State) : Flow :=
  if s.ctl.cstate = .master ∧ s.ctl.mphase = .mWaitDevAck ∧ forMe h s ∧ fromStation h s.ctl.pending then
    match ringSucc h.src s.ring with
    | none => .fault .missingRingId
    | some succ =>
      (send 0x7#4 h.src false (stationPayload succ) s).bind fun t =>
        .go { t with ctl := { t.ctl with mphase := .mWaitSuccAck, toCount := 0#32, timer := some .resp } }
  else .go s

/-- SetSuccessorAddressRequest (R247). -/
def setSuccessorRule (h : Header) (payload : List Byte) (s : State) : Flow :=
  match stationOperand payload with
  | none => .go s
  | some i =>
    if (s.ctl.cstate = .slaveJoining ∨ s.ctl.cstate = .slaveWaitingForFirstToken ∨ s.ctl.cstate = .slave) ∧
        s.ctl.ownId ≠ none ∧ forMe h s ∧ fromStation h s.ctl.peer ∧
        s.ctl.ownId ≠ some i ∧ i ≠ s.params.unassignedWireId then
      let s' := { s with ctl := { s.ctl with successor := some i } }
      (send 0x8#4 h.src false (stationPayload i) s').bind fun t =>
        let t' := { t with ctl := { t.ctl with toCount := 0#32 } }
        if t'.ctl.cstate = .slaveJoining then
          .go ((t'.setCState .slaveWaitingForFirstToken .r247).arm .token)
        else .go t'
    else .go s

/-- SetSuccessorAddressResponse (R248). -/
def successorSetRule (h : Header) (s : State) : Flow :=
  if s.ctl.cstate = .master ∧ forMe h s then
    match s.ctl.mphase with
    | .mWaitSuccAck =>
      if fromStation h s.ctl.pending then
        match ringPred h.src s.ring with
        | none => .fault .missingRingId
        | some pred =>
          let s' := { s with ctl := { s.ctl with toCount := 0#32 } }
          if s'.ctl.ownId = some pred then
            passToken { s' with
              ctl := { s'.ctl with
                successor := some h.src, known := insertId s'.ctl.known h.src, pending := none } }
          else
            let t := { s' with ctl := { s'.ctl with pendingPred := some pred } }
            (send 0x7#4 pred false (stationPayload h.src) t).bind fun u =>
              .go { u with ctl := { u.ctl with mphase := .mWaitPredAck, timer := some .resp } }
      else .go s
    | .mWaitPredAck =>
      if fromStation h s.ctl.pendingPred then
        passToken { s with
          ctl := { s.ctl with
            known := (match s.ctl.pending with
              | none => s.ctl.known
              | some i => insertId s.ctl.known i)
            pending := none, pendingPred := none, toCount := 0#32 } }
      else .go s
    | _ => .go s
  else .go s

/-- The kinds with no FSM effect: R242 and R249 to R253 (R182). -/
def noEffectRule (s : State) : Flow := .go s

/-! ## The meanings -/

/-- TOKEN (R240). -/
def execToken (h : Header) (s : State) : Result :=
  deliver (.headerOnly h) (tokenRule h) s

/-- SolicitSuccessorRequest (R241). -/
def execSolicitSuccessorRequest (h : Header) (d : List Byte) (s : State) : Result :=
  deliver (.command ⟨h, 0x1#4, d⟩) (solicitRule h) s

/-- SolicitSuccessorResponse (R242). -/
def execSolicitSuccessorResponse (h : Header) (d : List Byte) (s : State) : Result :=
  deliver (.command ⟨h, 0x2#4, d⟩) noEffectRule s

/-- GetAddressRequest (R243). -/
def execGetAddressRequest (h : Header) (d : List Byte) (s : State) : Result :=
  deliver (.command ⟨h, 0x3#4, d⟩) (getAddressRule h) s

/-- GetAddressResponse (R244). -/
def execGetAddressResponse (h : Header) (d : List Byte) (s : State) : Result :=
  deliver (.command ⟨h, 0x4#4, d⟩) (addressOfferedRule h) s

/-- SetDeviceAddressRequest (R245). -/
def execSetDeviceAddressRequest (h : Header) (d : List Byte) (s : State) : Result :=
  deliver (.command ⟨h, 0x5#4, d⟩) (setAddressRule h d) s

/-- SetDeviceAddressResponse (R246). -/
def execSetDeviceAddressResponse (h : Header) (d : List Byte) (s : State) : Result :=
  deliver (.command ⟨h, 0x6#4, d⟩) (addressSetRule h) s

/-- SetSuccessorAddressRequest (R247). -/
def execSetSuccessorAddressRequest (h : Header) (d : List Byte) (s : State) : Result :=
  deliver (.command ⟨h, 0x7#4, d⟩) (setSuccessorRule h d) s

/-- SetSuccessorAddressResponse (R248). -/
def execSetSuccessorAddressResponse (h : Header) (d : List Byte) (s : State) : Result :=
  deliver (.command ⟨h, 0x8#4, d⟩) (successorSetRule h) s

/-- Request (R249). -/
def execRequest (h : Header) (d : List Byte) (s : State) : Result :=
  deliver (.command ⟨h, 0x9#4, d⟩) noEffectRule s

/-- Response (R250). -/
def execResponse (h : Header) (d : List Byte) (s : State) : Result :=
  deliver (.command ⟨h, 0xA#4, d⟩) noEffectRule s

/-- Ack (R251). -/
def execAck (h : Header) (d : List Byte) (s : State) : Result :=
  deliver (.command ⟨h, 0xB#4, d⟩) noEffectRule s

/-- Busy (R252). -/
def execBusy (h : Header) (d : List Byte) (s : State) : Result :=
  deliver (.command ⟨h, 0xC#4, d⟩) noEffectRule s

/-- CMD0, reserved code 0x0 (R253). -/
def execCmd0 (h : Header) (d : List Byte) (s : State) : Result :=
  deliver (.command ⟨h, 0x0#4, d⟩) noEffectRule s

/-- CMD13, reserved code 0xD (R253). -/
def execCmd13 (h : Header) (d : List Byte) (s : State) : Result :=
  deliver (.command ⟨h, 0xD#4, d⟩) noEffectRule s

/-- CMD14, reserved code 0xE (R253). -/
def execCmd14 (h : Header) (d : List Byte) (s : State) : Result :=
  deliver (.command ⟨h, 0xE#4, d⟩) noEffectRule s

/-- CMD15, reserved code 0xF (R253). -/
def execCmd15 (h : Header) (d : List Byte) (s : State) : Result :=
  deliver (.command ⟨h, 0xF#4, d⟩) noEffectRule s

end Sys2Proof.Machine
end

