-- ==== Sys2Proof/Machine/HostPort.lean ====
section
/-! DEFINITION. The host port operations (spec/44_host_interface.md R260 to R274; spec/70_reset_and_hazards.md R320). Each is one
atomic step (R275) that appends what it returns to the replies (log entry 11). -/

namespace Sys2Proof.Machine

open Sys2Proof

/-- An operation that reads `CSTATE`: finding BroadcastingStationId is a fault (R171; log entry 15). -/
def readingCState (k : State → Result) (s : State) : Result :=
  match s.ctl.cstate with
  | .broadcastingStationId => .fault .unreachableState
  | _ => k s

/-- `enqueueFrame(F)` (R263), shared with `sendFrame` (R264). -/
def enqueue (hop : Byte) (f : HostFrame) (s : State) : State :=
  if s.fatal then s.reply hop .fatal .none
  else
    match hostFrameError f with
    | some e => s.reply hop (.encodeError e) .none
    | none =>
      if s.params.queueDepth = some s.ctl.txq.length then s.reply hop .queueFull .none
      else
        let s' := { s with ctl := { s.ctl with txq := s.ctl.txq ++ [frameOfHost f] } }
        s'.reply hop .ok .none

/-- The call step of a wait (R267, R269): Fatal at once in a fatal block, else a new waiter and no return yet. -/
def callWait (hop : Byte) (k : WaiterKind) (s : State) : State :=
  if s.fatal then s.reply hop .fatal .none else { s with waiters := s.waiters ++ [⟨k, false⟩] }

/-- What a codec encoder answers (R270, R271). -/
def replyEncoded (hop : Byte) (r : Except EncodeField (List Byte)) (s : State) : State :=
  match r with
  | .ok bs => s.reply hop .ok (.bytes bs)
  | .error e => s.reply hop (.encodeError e) .none

/-- The record of `readStatus` (R274). -/
def State.statusRecord (s : State) : StatusRecord where
  state := s.ctl.cstate.code
  ownId := s.ctl.ownId
  successor := s.ctl.successor
  lastError := s.ctl.lastError
  tokenCount := s.ctl.tokenCounter
  rxCmdCount := s.ctl.rxCmdCounter
  queueLength := s.ctl.txq.length
  persistFail := s.ctl.persistFail
  fatal := s.fatal
  opened := s.opened

/-! ## The meanings -/

/-- `open(deviceIdentifier)` (R260). The identifier is passed to the transport unread; the transport's answer is the
environment's choice (log entry 9). -/
def execOpenDevice (_deviceIdentifier : List Byte) (s : State) : Result :=
  if s.fatal then .next (s.reply 0x00#8 .fatal .none)
  else if s.opened then .next (s.reply 0x00#8 .badState .none)
  else if s.env.openOk then .next ({ s with opened := true }.reply 0x00#8 .ok .none)
  else .next (s.reply 0x00#8 .openFailed .none)

/-- `start()` (R261, R183). -/
def execStart (s : State) : Result :=
  if s.fatal then .next (s.reply 0x01#8 .fatal .none)
  else if !s.opened then .next (s.reply 0x01#8 .notOpen .none)
  else
    readingCState (fun s =>
      if s.ctl.cstate = .initial then .next ((enterSensing .start s).reply 0x01#8 .ok .none)
      else .next (s.reply 0x01#8 .badState .none)) s

/-- `enqueueFrame(F)` (R263). -/
def execEnqueueFrame (f : HostFrame) (s : State) : Result := .next (enqueue 0x02#8 f s)

/-- `sendFrame(F)` (R264): "identical to rule R263". -/
def execSendFrame (f : HostFrame) (s : State) : Result := .next (enqueue 0x03#8 f s)

/-- `getState()` (R265). -/
def execGetState (s : State) : Result :=
  readingCState (fun s => .next (s.reply 0x04#8 .ok (.stateCode s.ctl.cstate.code))) s

/-- `isReady()` (R266). -/
def execIsReady (s : State) : Result :=
  readingCState (fun s => .next (s.reply 0x05#8 .ok (.ready s.ready))) s

/-- `waitForCommandFrame()`, its call step (R267). -/
def execWaitForCommandFrame (s : State) : Result := .next (callWait 0x06#8 .cmd s)

/-- `readCounters()` (R268). -/
def execReadCounters (s : State) : Result :=
  .next (s.reply 0x07#8 .ok (.counters s.rx.framesOk s.rx.framesIncomplete s.rx.chkFails))

/-- `waitForToken()`, its call step (R269). -/
def execWaitForToken (s : State) : Result := .next (callWait 0x08#8 .tok s)

/-- `encodeHeader(h)` (R270). -/
def execEncodeHeader (h : HostHeader) (s : State) : Result :=
  .next (replyEncoded 0x09#8 (encodeHeaderBytes s.params h) s)

/-- `encodeCommandFrame(F)` (R271). -/
def execEncodeCommandFrame (c : HostCommand) (s : State) : Result :=
  .next (replyEncoded 0x0A#8 (encodeCommandBytes s.params c) s)

/-- `decodeHeader(bytes)` (R272). -/
def execDecodeHeader (bs : List Byte) (s : State) : Result :=
  match decodeHeaderBytes s.params bs with
  | .ok h => .next (s.reply 0x0B#8 .ok (.header h))
  | .error k => .next (s.reply 0x0B#8 (.decodeError k) .none)

/-- `decodeFrame(bytes)` (R273). -/
def execDecodeFrame (bs : List Byte) (s : State) : Result :=
  match decodeFrameBytes s.params bs with
  | .ok f => .next (s.reply 0x0C#8 .ok (.frame f))
  | .error k => .next (s.reply 0x0C#8 (.decodeError k) .none)

/-- `readStatus()` (R274). -/
def execReadStatus (s : State) : Result :=
  readingCState (fun s => .next (s.reply 0x0D#8 .ok (.statusRecord s.statusRecord))) s

/-- `reset()` (R320): every register to its reset value, the waiters dropped without a return; the histories, the
parameters (R47) and the environment keep their values. Accepted in every state. -/
def execReset (s : State) : Result :=
  let s' := { State.resetWith s.params with out := s.out, env := s.env }
  .next (s'.reply 0x0E#8 .ok .none)

/-! ## The port's other steps -/

/-- A code that is no operation (R276): status BadOp, nothing changed. -/
def badOp (hop : Byte) (s : State) : State := s.reply hop .badOp .none

/-- The code of the operation a waiter belongs to. -/
def WaiterKind.hop : WaiterKind → Byte
  | .cmd => 0x06#8
  | .tok => 0x08#8

/-- The status of a wait's return (R267, R269). -/
def WaitReturn.status : WaitReturn → HostStatus
  | .ok => .ok
  | .fatal => .fatal

/-- The return step of a wait (R267, R269): the waiter is removed. -/
def returnWait (w : Waiter) (ret : WaitReturn) (s : State) : State :=
  { s with waiters := s.waiters.erase w }.reply w.kind.hop ret.status .none

end Sys2Proof.Machine
end

