-- ==== Sys2Proof/Machine/Dispatch.lean ====
section
/-! DEFINITION. The dispatch: one arm per constructor of Instr. -/

namespace Sys2Proof.Machine

open Sys2Proof

def exec (i : Instr) (s : State) : Host.Outcome State Fault Refusal :=
  match i with
  | .token h => Sys2Proof.Machine.execToken h s
  | .solicitSuccessorRequest h d => Sys2Proof.Machine.execSolicitSuccessorRequest h d s
  | .solicitSuccessorResponse h d => Sys2Proof.Machine.execSolicitSuccessorResponse h d s
  | .getAddressRequest h d => Sys2Proof.Machine.execGetAddressRequest h d s
  | .getAddressResponse h d => Sys2Proof.Machine.execGetAddressResponse h d s
  | .setDeviceAddressRequest h d => Sys2Proof.Machine.execSetDeviceAddressRequest h d s
  | .setDeviceAddressResponse h d => Sys2Proof.Machine.execSetDeviceAddressResponse h d s
  | .setSuccessorAddressRequest h d => Sys2Proof.Machine.execSetSuccessorAddressRequest h d s
  | .setSuccessorAddressResponse h d => Sys2Proof.Machine.execSetSuccessorAddressResponse h d s
  | .request h d => Sys2Proof.Machine.execRequest h d s
  | .response h d => Sys2Proof.Machine.execResponse h d s
  | .ack h d => Sys2Proof.Machine.execAck h d s
  | .busy h d => Sys2Proof.Machine.execBusy h d s
  | .cmd0 h d => Sys2Proof.Machine.execCmd0 h d s
  | .cmd13 h d => Sys2Proof.Machine.execCmd13 h d s
  | .cmd14 h d => Sys2Proof.Machine.execCmd14 h d s
  | .cmd15 h d => Sys2Proof.Machine.execCmd15 h d s
  | .openDevice v => Sys2Proof.Machine.execOpenDevice v s
  | .start => Sys2Proof.Machine.execStart s
  | .enqueueFrame v => Sys2Proof.Machine.execEnqueueFrame v s
  | .sendFrame v => Sys2Proof.Machine.execSendFrame v s
  | .getState => Sys2Proof.Machine.execGetState s
  | .isReady => Sys2Proof.Machine.execIsReady s
  | .waitForCommandFrame => Sys2Proof.Machine.execWaitForCommandFrame s
  | .readCounters => Sys2Proof.Machine.execReadCounters s
  | .waitForToken => Sys2Proof.Machine.execWaitForToken s
  | .encodeHeader v => Sys2Proof.Machine.execEncodeHeader v s
  | .encodeCommandFrame v => Sys2Proof.Machine.execEncodeCommandFrame v s
  | .decodeHeader v => Sys2Proof.Machine.execDecodeHeader v s
  | .decodeFrame v => Sys2Proof.Machine.execDecodeFrame v s
  | .readStatus => Sys2Proof.Machine.execReadStatus s
  | .reset => Sys2Proof.Machine.execReset s

end Sys2Proof.Machine
end

