-- ==== Sys2Proof/Machine/Receiver.lean ====
section
/-! DEFINITION. The frame reader (spec/41_frame_reader.md R141 to R151): its transitions on a byte and on an inter-byte timeout, as
functions of the receiver's registers and the parameters. -/

namespace Sys2Proof.Machine

open Sys2Proof

/-- What a byte leads to outside the receiver: nothing, a valid frame for the controller (R150), or a checksum failure
(R151). -/
inductive RxVerdict
  | quiet
  | frame (f : Frame)
  | checksumFail
  deriving DecidableEq, Repr

/-- `FRAMES_INCOMPLETE <- FRAMES_INCOMPLETE + 1` (R25). -/
def countIncomplete (r : Receiver) : Receiver := { r with framesIncomplete := r.framesIncomplete + 1#32 }

/-- Abandon the frame in progress and resynchronise (R144, R149). -/
def resynchronize (r : Receiver) : Receiver :=
  { countIncomplete r with rstate := .synchronizing, escPending := false }

/-- A raw marker starts a frame, abandoning one in progress (R141). -/
def startFrame (p : Params) (r : Receiver) : Receiver :=
  let r' := if r.rstate = .synchronizing then r else countIncomplete r
  { r' with
    rstate := .readingHeader
    escPending := false
    rcount := 0#5
    rlen := 0#4
    rchk := []
    rcrc := if p.chkCoversMarker then chkStep p p.chkInit p.marker else p.chkInit }

/-- `RBUF[RCOUNT] <- v; RCOUNT <- RCOUNT + 1; RCRC <- CHK_STEP(RCRC, v)` (R146, R147). A count of 18 or more, which no run
reaches, writes no byte (log entry 18). -/
def storeByte (p : Params) (v : Byte) (r : Receiver) : Receiver :=
  { r with
    rbuf := r.rbuf.setIfInBounds r.rcount.toNat v
    rcount := r.rcount + 1#5
    rcrc := chkStep p r.rcrc v }

/-- Delivery in ReadingHeader (R146). -/
def headerByte (p : Params) (v : Byte) (r : Receiver) : Receiver :=
  let r' := storeByte p v r
  if r'.rcount = 2#5 ∧ typeOf r'.rbuf[0] = false then { r' with rstate := .readingChecksum }
  else if r'.rcount = 3#5 then
    { r' with
      rlen := lenOf v
      rstate := if lenOf v = 0#4 then .readingChecksum else .readingPacket }
  else r'

/-- Delivery in ReadingPacket (R147). -/
def packetByte (p : Params) (v : Byte) (r : Receiver) : Receiver :=
  let r' := storeByte p v r
  if r'.rcount.toNat = 3 + r'.rlen.toNat then { r' with rstate := .readingChecksum } else r'

/-- The payload in `RBUF[3 .. 2+RLEN]` (R150). -/
def Receiver.payload (r : Receiver) : List Byte := (r.rbuf.toList.drop 3).take r.rlen.toNat

/-- The frame in `RBUF` (R150). -/
def Receiver.frame (r : Receiver) : Frame :=
  let hdr := headerOf r.rbuf[0] r.rbuf[1]
  if typeOf r.rbuf[0] then .command ⟨hdr, cmdOf r.rbuf[2], r.payload⟩ else .headerOnly hdr

/-- Delivery in ReadingChecksum (R148): the last checksum byte gives the verdict (R150, R151). -/
def checksumByte (p : Params) (v : Byte) (r : Receiver) : Receiver × RxVerdict :=
  let r' := { r with rchk := r.rchk ++ [v] }
  if r'.rchk.length = p.chkWidth.bytes then
    if assemble p r'.rchk = chkFinal p r'.rcrc then
      ({ r' with framesOk := r'.framesOk + 1#32, rstate := .synchronizing }, .frame r'.frame)
    else ({ r' with chkFails := r'.chkFails + 1#32, rstate := .synchronizing }, .checksumFail)
  else (r', .quiet)

/-- An un-stuffed byte goes to the current state (R146 to R148). -/
def deliverByte (p : Params) (v : Byte) (r : Receiver) : Receiver × RxVerdict :=
  match r.rstate with
  | .synchronizing => (r, .quiet)
  | .readingHeader => (headerByte p v r, .quiet)
  | .readingPacket => (packetByte p v r, .quiet)
  | .readingChecksum => checksumByte p v r

/-- `RxByte(b)` (R141 to R148), in the order of section 2: raw marker, Synchronizing, escape start, escape completion or
violation, plain byte. -/
def receiveByte (p : Params) (b : Byte) (r : Receiver) : Receiver × RxVerdict :=
  if b = p.marker then (startFrame p r, .quiet)
  else if r.rstate = .synchronizing then (r, .quiet)
  else if r.escPending then
    if isEscLiteral p b then deliverByte p (escDec p b) { r with escPending := false }
    else (resynchronize r, .quiet)
  else if b = p.esc then ({ r with escPending := true }, .quiet)
  else deliverByte p b r

/-- `RxIdle` (R149). -/
def receiveIdle (r : Receiver) : Receiver :=
  if r.rstate = .synchronizing then r else resynchronize r

end Sys2Proof.Machine
end

