-- ==== Sys2Proof/Machine/Events.lean ====
section
/-! DEFINITION. What each event does to the block (spec/42_arbitration.md R170; spec/41_frame_reader.md R140; spec/44_host_interface.md
R275). An event that is not enabled does not occur: its entry of the schedule lapses and nothing else changes (log
entry 8). -/

namespace Sys2Proof.Machine

open Sys2Proof

/-- An event the receiver takes only while `ACTIVE` holds (R46, R140); otherwise the block does not see it. -/
def whileActive (k : State → Result) (s : State) : Result :=
  match s.activity with
  | .inactive => .next s
  | .unreachable => .fault .unreachableState
  | .active => k s

/-- `RxByte(b)` (R140 to R151): the receiver's transition, and in the same step the controller's handling of a completed
frame or of a checksum failure (R15). -/
def rxByteEvent (b : Byte) (s : State) : Result :=
  match receiveByte s.params b s.rx with
  | (r, .quiet) => .next { s with rx := r }
  | (r, .frame f) => exec (Instr.ofFrame f) { s with rx := r }
  | (r, .checksumFail) => .next (checksumFail { s with rx := r })

/-- A host operation (R275): the decoded instruction, or BadOp (R276). -/
def hostCallEvent (r : HostRequest) (s : State) : Result :=
  match decodeHost r with
  | .ok i => exec i s
  | .error _ => .next (badOp r.hop s)

/-- A controller step of its own reads `CSTATE` (R170): BroadcastingStationId is a fault (R171), and a step that is not
enabled does not occur. -/
def controllerStep (enabled : State → Bool) (k : State → Flow) (s : State) : Result :=
  if s.fatal then .next s
  else if s.ctl.cstate = .broadcastingStationId then .fault .unreachableState
  else if enabled s then (k s).outcome
  else .next s

/-- One event, one step. -/
def handle (e : Event) (s : State) : Result :=
  match e with
  | .rxByte b => whileActive (rxByteEvent b) s
  | .rxIdle => whileActive (fun s => .next { s with rx := receiveIdle s.rx }) s
  | .rxFail => whileActive (fun s => .next (transportError .read s)) s
  | .timeout k => controllerStep (State.timeoutEnabled k) (timeoutStep k) s
  | .tenure => controllerStep State.tenureEnabled tenureStep s
  | .errorExit => controllerStep State.errorExitEnabled (fun s => .go (errorExit s)) s
  | .hostCall r => hostCallEvent r s
  | .waitReturn w ret => if s.returnEnabled w ret then .next (returnWait w ret s) else .next s
  | .takeFrame =>
    if s.rxAvailable then .next { s with env := { s.env with rxRead := s.env.rxRead + 1 } } else .next s
  | .transport openOk writeRoom => .next { s with env := { s.env with openOk := openOk, writeRoom := writeRoom } }

/-- The next event of the schedule, or nothing: between events the block does nothing (R310). -/
def takeEvent (s : State) : Result :=
  match s.env.schedule with
  | [] => .next s
  | e :: rest => handle e { s with env := { s.env with schedule := rest } }

end Sys2Proof.Machine
end

