-- ==== Sys2Proof/Machine/Fetch.lean ====
section
/-! DEFINITION. Placing one instruction where the next step runs it (log entry 13): a host request becomes the next event; a frame
stands in the receiver with all its bytes received but the last checksum byte, which is the next event. -/

namespace Sys2Proof.Machine

open Sys2Proof

/-- The receiver must run for a frame to be seen (R46): opened, not fatal, and past Initial, in Sensing as `start` leaves
it. Nothing else changes, and an active block is left as it is. -/
def State.activate (s : State) : State :=
  { s with
    opened := true
    fatal := false
    ctl :=
      match s.ctl.cstate with
      | .initial => { s.ctl with cstate := .sensing, timer := some .sense }
      | _ => s.ctl }

/-- The receiver just before the last un-stuffed checksum byte of the frame of this layout (R141 to R148). -/
def receiverBeforeLast (p : Params) (layout : List Byte) (r : Receiver) : Receiver :=
  let body := layout.drop 1
  let chk := chkBytes p (checksum p layout)
  { r with
    rstate := .readingChecksum
    escPending := match chk.getLast? with
      | none => false
      | some v => decide (v = p.marker ∨ v = p.esc)
    rbuf := Vector.ofFn fun i => body.getD i r.rbuf[i]
    rcount := BitVec.ofNat 5 body.length
    rlen := match body with
      | _ :: _ :: b3 :: _ => lenOf b3
      | _ => 0#4
    rcrc := (covered p layout).foldl (chkStep p) p.chkInit
    rchk := chk.dropLast }

/-- The byte of the wire that completes the frame of this layout: the last of its wire image. -/
def lastWireByte (p : Params) (layout : List Byte) : Byte := (wireImage p layout).getLastD p.marker

/-- An encoded instruction placed so that the next step runs it. -/
def State.stage (e : Encoded) (s : State) : State :=
  match e with
  | .host r => { s with env := { s.env with schedule := .hostCall r :: s.env.schedule } }
  | .wire layout =>
    let s' := s.activate
    { s' with
      rx := receiverBeforeLast s'.params layout s'.rx
      env := { s'.env with schedule := .rxByte (lastWireByte s'.params layout) :: s'.env.schedule } }

end Sys2Proof.Machine
end

