-- ==== Sys2Proof/Machine/Step.lean ====
section
/-! DEFINITION. One step of the block, and the placing of an instruction for it. -/

namespace Sys2Proof.Machine

open Sys2Proof

/-- One step: the next event of the schedule (log entry 7). -/
def step (s : State) : Host.Outcome State Fault Refusal := takeEvent s

/-- The state with the instruction of a table word placed where `step` takes its next one (log entries 13 and 25). -/
def State.withFetchWord (s : State) (nbits w : Nat) : State :=
  s.stage (encodedOfTableWord s.params nbits w)

end Sys2Proof.Machine
end

