-- ==== Sys2Proof/Machine/Bus.lean ====
section
/-! DEFINITION. Several stations on one medium (spec/60_exceptions.md R308): each station is one block, the medium is lossless, and
every byte a station writes is delivered in order to every other station's receiver, never to itself (R158). The bus acts
in any order: which station's byte is carried, or which station steps, is the schedule's choice (D46; log entry 22). -/

namespace Sys2Proof.Machine

open Sys2Proof

/-- A station on the bus: its block, and how many bytes of its `WIRE_OUT` the medium has carried. -/
structure Station where
  block : State
  carried : Nat
  deriving DecidableEq, Repr

/-- A bus is its stations. -/
abbrev Bus := List Station

/-- The byte arrives at a station: one more event for its receiver. -/
def Station.hear (b : Byte) (x : Station) : Station :=
  { x with block := { x.block with env := { x.block.env with schedule := x.block.env.schedule ++ [.rxByte b] } } }

/-- The medium carries the next byte of station `i` to every other station; nothing if there is none to carry. -/
def Bus.carry (i : Nat) (bus : Bus) : Bus :=
  match bus[i]? with
  | none => bus
  | some sender =>
    match sender.block.out.wireOut[sender.carried]? with
    | none => bus
    | some b =>
      bus.mapIdx fun j x => if j = i then { x with carried := x.carried + 1 } else x.hear b

/-- Station `i` takes a step of its own; a station whose step stops stays as it is. -/
def Bus.stepStation (i : Nat) (bus : Bus) : Bus :=
  bus.mapIdx fun j x =>
    if j = i then
      match step x.block with
      | .next s => { x with block := s }
      | .fault _ => x
      | .refused _ => x
    else x

/-- An event of station `i`'s environment comes before what it has scheduled. -/
def Bus.inject (i : Nat) (e : Event) (bus : Bus) : Bus :=
  bus.mapIdx fun j x =>
    if j = i then
      { x with block := { x.block with env := { x.block.env with schedule := e :: x.block.env.schedule } } }
    else x

end Sys2Proof.Machine
end

