-- ==== Sys2Proof/Safety.lean ====
section
/-! DEFINITION. What holds of every run: the invariants of the receiver and of the controller, and the fairness of a run
(spec/70_reset_and_hazards.md R333). -/

namespace Sys2Proof.Machine

open Sys2Proof

/-! ## Invariants -/

/-- The receiver's registers belong together (R22, R23, R141 to R149). -/
structure ReceiverInv (p : Params) (r : Receiver) : Prop where
  /-- "RCOUNT (0..18)" (R23). -/
  count_le : r.rcount.toNat ≤ 18
  /-- `RCHK` holds at most `CHK_BYTES` bytes (R24). -/
  chk_le : r.rchk.length ≤ p.chkWidth.bytes
  /-- No escape is pending outside a frame (R142, R144, R149). -/
  sync_no_escape : r.rstate = .synchronizing → r.escPending = false
  /-- In ReadingHeader fewer than three bytes are stored, and two only of a command frame (R146). -/
  header : r.rstate = .readingHeader →
    r.rcount.toNat ≤ 2 ∧ (r.rcount.toNat = 2 → typeOf r.rbuf[0] = true) ∧ r.rchk = []
  /-- In ReadingPacket the frame is a command frame whose payload is incomplete (R147). -/
  packet : r.rstate = .readingPacket →
    typeOf r.rbuf[0] = true ∧ r.rlen = lenOf r.rbuf[2] ∧ 3 ≤ r.rcount.toNat ∧
      r.rcount.toNat < 3 + r.rlen.toNat ∧ r.rchk = []
  /-- In ReadingChecksum header and payload are complete and the checksum is not (R146 to R148). -/
  checksum : r.rstate = .readingChecksum →
    r.rchk.length < p.chkWidth.bytes ∧
      ((typeOf r.rbuf[0] = false ∧ r.rcount.toNat = 2) ∨
        (typeOf r.rbuf[0] = true ∧ r.rlen = lenOf r.rbuf[2] ∧ r.rcount.toNat = 3 + r.rlen.toNat))

/-- The outgoing queue holds sendable frames, no more than `QUEUE_DEPTH` (R43, R62, R102). -/
structure QueueInv (p : Params) (c : Controller) : Prop where
  sendable : ∀ f ∈ c.txq, f.wellFormed = true
  depth : ∀ d, p.queueDepth = some d → c.txq.length ≤ d

/-- The station has a place in the ring (R28, R247). -/
def CState.inRing : CState → Bool
  | .master => true
  | .slave => true
  | .slaveWaitingForFirstToken => true
  | _ => false

/-- The station is in or past the address dialogue as a joiner, or a slave (R29). -/
def CState.hasPeer : CState → Bool
  | .slaveJoining => true
  | .slave => true
  | .slaveWaitingForFirstToken => true
  | _ => false

/-- The role and ring registers belong to the controller's state (R27 to R31, R34, R35, R171). -/
structure RoleInv (p : Params) (c : Controller) : Prop where
  /-- R171. -/
  reachable : c.cstate ≠ .broadcastingStationId
  /-- "id UNASSIGNED_WIRE_ID is never assigned to a station" (R61). -/
  assigned : c.ownId ≠ some p.unassignedWireId
  ring_id : c.cstate.inRing = true → c.ownId ≠ none ∧ c.successor ≠ none
  /-- Outside the ring and SlaveJoining the block has no id. -/
  no_id : c.cstate.inRing = false → c.cstate ≠ .slaveJoining → c.ownId = none
  /-- "In Slave, SUCCESSOR is never none or OWN_ID" (R188). -/
  slave_successor : c.cstate = .slave ∨ c.cstate = .slaveWaitingForFirstToken → c.successor ≠ c.ownId
  peer_set : c.cstate.hasPeer = true → c.peer ≠ none
  holder : c.holdsToken = true → c.cstate = .master ∨ c.cstate = .slave
  /-- `KNOWN` and the dialogue registers are the master's (R30, R34, R35). -/
  master_only : c.cstate ≠ .master →
    c.known = 0#64 ∧ c.mphase = .mIdle ∧ c.pending = none ∧ c.pendingPred = none
  /-- `KNOWN` is "the master's set of station ids in the ring other than its own" (R30), and 63 is never assigned. -/
  known_others : ∀ i, member c.known i = true → c.ownId ≠ some i ∧ i ≠ p.unassignedWireId
  pending_free : ∀ i, c.pending = some i →
    c.ownId ≠ some i ∧ i ≠ p.unassignedWireId ∧ member c.known i = false

/-- The master's phase against its token and dialogue registers (R34, R35, R187 to R192, R243 to R248), in a block that
has not stopped. -/
def phaseOk (c : Controller) : Prop :=
  match c.mphase with
  | .mIdle => c.holdsToken = false ∧ c.pending = none ∧ c.pendingPred = none
  | .mDrain => c.holdsToken = true ∧ c.pending = none ∧ c.pendingPred = none
  | .mSolicit => c.holdsToken = true ∧ c.pending = none ∧ c.pendingPred = none
  | .mWaitDevAck => c.holdsToken = true ∧ c.pending ≠ none ∧ c.pendingPred = none
  | .mWaitSuccAck => c.holdsToken = true ∧ c.pending ≠ none ∧ c.pendingPred = none
  | .mWaitPredAck => c.holdsToken = true ∧ c.pending ≠ none ∧ c.pendingPred ≠ none

/-- The timer that R177's table gives for the controller's state. -/
def expectedTimer (c : Controller) : Option TimerKind :=
  match c.cstate with
  | .initial => none
  | .sensing => some .sense
  | .broadcastingStationId => none
  | .slaveWaitingToJoin => if c.peer = none then some .joinWait else some .resp
  | .slaveJoining => some .resp
  | .slaveWaitingForFirstToken => some .token
  | .slave => if c.holdsToken then none else some .token
  | .error => none
  | .master =>
    match c.mphase with
    | .mIdle => some .token
    | .mDrain => none
    | .mSolicit => some .joinWin
    | .mWaitDevAck => some .resp
    | .mWaitSuccAck => some .resp
    | .mWaitPredAck => some .resp

/-- The counts stay below their thresholds (R37, R38, R291). -/
structure CountInv (p : Params) (c : Controller) : Prop where
  timeouts : c.toCount.toNat < p.nTimeout
  checksums : c.ckCount.toNat < p.nChkFail
  retries : c.errRetries.toNat ≤ p.nRetry + 1
  /-- `PERSIST_FAIL` is set exactly past `N_RETRY`, and leaves the block in Error (R38, R297). -/
  persist : c.persistFail = true → c.cstate = .error
  not_persist : c.persistFail = false → c.errRetries.toNat ≤ p.nRetry
  /-- "Codes 9 to 255 are never written" (R291). -/
  last_error : c.lastError.toNat ≤ 8

/-- The invariant of the block. -/
structure State.Inv (s : State) : Prop where
  params : s.params.wellFormed = true
  receiver : ReceiverInv s.params s.rx
  queue : QueueInv s.params s.ctl
  role : RoleInv s.params s.ctl
  counts : CountInv s.params s.ctl
  phase : s.fatal = false → s.ctl.cstate = .master → phaseOk s.ctl
  timer : s.fatal = false → s.ctl.timer = expectedTimer s.ctl
  /-- "The controller cannot leave Initial while OPENED = 0" (R44). -/
  closed : s.opened = false → s.ctl.cstate = .initial ∧ s.fatal = false
  /-- A stopped block says why (R293). -/
  stopped : s.fatal = true → s.ctl.lastError = 1#8 ∨ s.ctl.lastError = 2#8
  readPoint : s.env.rxRead ≤ s.out.rxOut.length

/-! ## The terms of the statements -/

/-- The block runs (R46): opened and not stopped. -/
def State.running (s : State) : Prop := s.fatal = false ∧ s.opened = true

/-- The transport accepts these bytes (R173). -/
def State.canSend (bs : List Byte) (s : State) : Prop := ∀ room, s.env.writeRoom = some room → bs.length ≤ room

/-- The bytes have gone to the transport: they end `WIRE_OUT`, and its room shrinks by them (R173; log entry 9). -/
def State.sent (bs : List Byte) (s : State) : State :=
  { s with
    out := { s.out with wireOut := s.out.wireOut ++ bs }
    env := { s.env with writeRoom := s.env.writeRoom.map (· - bs.length) } }

/-- The wire image of a command frame of this block (R174): source `src`, counter 0. -/
def commandOnWire (p : Params) (src : StationId) (cmd : BitVec 4) (dest : StationId) (bc : Bool) (payload : List Byte) :
    List Byte :=
  wireImage p (frameLayout p (.command ⟨⟨dest, bc, src, 0#2⟩, cmd, payload⟩))

/-- The wire image of a token of this block (R87, R174). -/
def tokenOnWire (p : Params) (src dest : StationId) : List Byte :=
  wireImage p (frameLayout p (.headerOnly ⟨dest, false, src, 0#2⟩))

/-- The wire image of a queued frame as the block sends it: `src` overwritten (R99, R187). -/
def queuedOnWire (p : Params) (src : StationId) (f : CommandFrame) : List Byte :=
  wireImage p (frameLayout p (.command { f with hdr := { f.hdr with src := src } }))

/-- The waiters after an event of one kind: every waiter of that kind is fired (R51). -/
def released (k : WaiterKind) (ws : List Waiter) : List Waiter :=
  ws.map fun w => ⟨w.kind, w.fired || decide (w.kind = k)⟩

/-- How many queued frames a tenure sends: at most `MAX_TX_PER_TOKEN` (R187). -/
def tenureCount (p : Params) (queued : Nat) : Nat :=
  match p.maxTxPerToken with
  | none => queued
  | some n => min n queued

/-- The id in the payload's first byte (R101) is one that a station may be told: in range, not the unassigned one and not
the excluded one. -/
def usableId (p : Params) (excluded : Option StationId) (d : List Byte) : Prop :=
  ∃ (n : StationId) (rest : List Byte),
    d = n.setWidth 8 :: rest ∧ n ≠ p.unassignedWireId ∧ excluded ≠ some n

/-- Steps of the machine, stopping at the first fault or refusal. -/
def runSteps (n : Nat) (s : State) : Result := Sys2Proof.core.run n s

/-- The event a step would take is the host's `reset` (R320). -/
def State.resetNext (s : State) : Prop := ∃ r rest, s.env.schedule = .hostCall r :: rest ∧ r.hop = 0x0E#8

/-! ## Fairness (R333) -/

/-- An event of the transport for the receiver (R140). -/
def Event.isReceiver : Event → Bool
  | .rxByte _ => true
  | .rxIdle => true
  | .rxFail => true
  | .timeout _ => false
  | .tenure => false
  | .errorExit => false
  | .hostCall _ => false
  | .waitReturn _ _ => false
  | .takeFrame => false
  | .transport _ _ => false

/-- A run: the states, the events between them, and the receiver events that are pending at each point, that is, that the
transport has delivered and the receiver has not taken, oldest first (log entry 24). -/
structure Run where
  stateAt : Nat → State
  eventAt : Nat → Event
  pendingAt : Nat → List Event

/-- What is pending before and after an event: a receiver event is the oldest pending one and is taken; meanwhile the
transport may deliver more. -/
def pendingFollows (e : Event) (before after : List Event) : Prop :=
  if e.isReceiver then ∃ rest more, before = e :: rest ∧ after = rest ++ more
  else ∃ more, after = before ++ more

/-- Each state follows from the one before by its event, and only receiver events are pending, in their order. -/
structure Run.Valid (r : Run) : Prop where
  step : ∀ n, handle (r.eventAt n) (r.stateAt n) = .next (r.stateAt (n + 1))
  receiver_only : ∀ n, ∀ e ∈ r.pendingAt n, e.isReceiver = true
  pending : ∀ n, pendingFollows (r.eventAt n) (r.pendingAt n) (r.pendingAt (n + 1))

/-- An event that stays enabled from some point on is taken after it (weak fairness). -/
def Run.fairTo (r : Run) (e : Event) (enabledAt : Nat → Prop) : Prop :=
  ∀ n, (∀ m, n ≤ m → enabledAt m) → ∃ m, n ≤ m ∧ r.eventAt m = e

/-- The oldest pending receiver event, while the receiver runs (R46, R140). -/
def Run.receives (r : Run) (e : Event) (n : Nat) : Prop :=
  (r.pendingAt n).head? = some e ∧ (r.stateAt n).activity = .active

/-- The liveness assumption of R333: a controller step, a pending receiver event, a host return or an armed timer that
stays enabled is taken. -/
structure Run.WeaklyFair (r : Run) : Prop where
  tenure : r.fairTo .tenure fun n => (r.stateAt n).tenureEnabled = true
  errorExit : r.fairTo .errorExit fun n => (r.stateAt n).errorExitEnabled = true
  receiver : ∀ e, r.fairTo e (r.receives e)
  waitReturn : ∀ w ret, r.fairTo (.waitReturn w ret) fun n => (r.stateAt n).returnEnabled w ret = true
  timeout : ∀ k, r.fairTo (.timeout k) fun n => (r.stateAt n).timeoutEnabled k = true

end Sys2Proof.Machine
end

