-- ==== Sys2Proof/Certificates/Slice0/Obligations.lean ====
section
/-! DEFINITION. The statements for the provers. Each is a claim about the block taken from the numbered rules of spec/; OBLIGATIONS.json
names the rule or the sections. In all of them an event is an entry of the model's schedule (log entry 7), a return from
the host port an entry of its replies (log entry 11), and the transport's answers are its environment fields (log entry 9). -/

open Sys2Proof Sys2Proof.Machine

/-! ## Encoding -/

/-- Decode of encode is the instruction, for every well-formed instruction with every operand (30_encoding.md R80 to R95;
the host port's operand layout is the model's choice, log entry 10). -/
def Obligations.DecodeOfEncodeIsTheInstruction : Prop :=
  ∀ (p : Params) (i : Instr), i.wellFormed = true → decode p (encode p i) = .ok i

/-- R82, R83, R84: the header bytes and the command byte as numbers, and every byte value is a legal encoding. -/
def Obligations.HeaderAndCommandBytesAsNumbers : Prop :=
  (∀ (dest : StationId) (bc type : Bool),
    (headerByte1 dest bc type).toNat = dest.toNat * 4 + bc.toNat * 2 + type.toNat) ∧
  (∀ (src : StationId) (ctr : BitVec 2), (headerByte2 src ctr).toNat = src.toNat * 4 + ctr.toNat) ∧
  (∀ (cmd len : BitVec 4), (commandByte cmd len).toNat = cmd.toNat * 16 + len.toNat) ∧
  (∀ b : Byte, headerByte1 (destOf b) (bcOf b) (typeOf b) = b) ∧
  (∀ b : Byte, headerByte2 (srcOf b) (ctrOf b) = b) ∧
  (∀ b : Byte, commandByte (cmdOf b) (lenOf b) = b)

/-- A few table words decode to their instructions (R94, R105; a sanity statement). -/
def Obligations.TableWordsDecode : Prop :=
  decodeTableWord 16 0x140C = some (.token ⟨5#6, false, 3#6, 0#2⟩) ∧
  decodeTableWord 24 0x150C90 = some (.request ⟨5#6, false, 3#6, 0#2⟩ []) ∧
  decodeTableWord 24 0x030010 = some (.solicitSuccessorRequest ⟨0#6, true, 0#6, 0#2⟩ []) ∧
  decodeTableWord 24 0x0500F0 = some (.cmd15 ⟨1#6, false, 0#6, 0#2⟩ []) ∧
  decodeTableWord 8 0x0E = some .reset ∧
  decodeTableWord 8 0x0F = none

/-- R121: the round trips of the codec, header, command frame and wire image, for every parameter the spec admits. -/
def Obligations.CodecRoundTrips : Prop :=
  ∀ p : Params, p.wellFormed = true →
    (∀ (h : HostHeader) (bs : List Byte), encodeHeaderBytes p h = .ok bs →
      ∃ d, decodeHeaderBytes p bs = .ok d ∧ d.dest.toNat = h.dest ∧ d.bc.toNat = h.bc ∧ d.type.toNat = h.type ∧
        d.src.toNat = h.src ∧ d.ctr.toNat = h.ctr) ∧
    (∀ (c : HostCommand) (bs : List Byte), encodeCommandBytes p c = .ok bs →
      ∃ f, decodeFrameBytes p bs = .ok (.command f) ∧ f.hdr.dest.toNat = c.dest ∧ f.hdr.bc.toNat = c.bc ∧
        f.hdr.src.toNat = c.src ∧ f.hdr.ctr.toNat = c.ctr ∧ f.cmd.toNat = c.cmd ∧
        f.payload.map BitVec.toNat = c.payload) ∧
    (∀ body : List Byte,
      unstuff p (wireImage p (p.marker :: body)) =
        some (.ok (p.marker :: body ++ chkBytes p (checksum p (p.marker :: body)))))

/-- The corner case of R116: a raw marker stands at index 0 of a wire image and nowhere else. -/
def Obligations.MarkerOnlyAtTheFrontOfAWireImage : Prop :=
  ∀ (p : Params) (layout : List Byte), p.wellFormed = true →
    (wireImage p layout).head? = some p.marker ∧ p.marker ∉ (wireImage p layout).tail

/-- R91: the lengths of raw and wire images. -/
def Obligations.ImageLengths : Prop :=
  ∀ (p : Params) (f : Frame),
    (rawImage p (frameLayout p f)).length =
      (match f with
        | .headerOnly _ => 3 + p.chkWidth.bytes
        | .command c => 4 + c.payload.length + p.chkWidth.bytes) ∧
    (wireImage p (frameLayout p f)).length =
      (rawImage p (frameLayout p f)).length +
        ((rawImage p (frameLayout p f)).drop 1).countP (fun b => decide (b = p.marker ∨ b = p.esc)) ∧
    (p.chkWidth = .w16 → f.wellFormed = true →
      match f with
      | .headerOnly _ =>
        (rawImage p (frameLayout p f)).length = 5 ∧
        5 ≤ (wireImage p (frameLayout p f)).length ∧ (wireImage p (frameLayout p f)).length ≤ 9
      | .command _ =>
        6 ≤ (rawImage p (frameLayout p f)).length ∧ (rawImage p (frameLayout p f)).length ≤ 21 ∧
        6 ≤ (wireImage p (frameLayout p f)).length ∧ (wireImage p (frameLayout p f)).length ≤ 41)

/-- R118: the default checksum's check value, its zero residue, and that testing for the residue is R150's comparison. -/
def Obligations.DefaultChecksumResidue : Prop :=
  ([0x31#8, 0x32#8, 0x33#8, 0x34#8, 0x35#8, 0x36#8, 0x37#8, 0x38#8, 0x39#8].foldl kermitStep 0#16 = 0x2189#16) ∧
  (∀ xs : List Byte,
    (xs ++ [(xs.foldl kermitStep 0#16).setWidth 8, (xs.foldl kermitStep 0#16 >>> 8).setWidth 8]).foldl kermitStep
      0#16 = 0#16) ∧
  (∀ (c : ChkReg) (b0 b1 : Byte),
    [b0, b1].foldl kermitStep c = 0#16 ↔ (b0.setWidth 16 ||| (b1.setWidth 16 <<< 8)) = c)

/-! ## A step runs the decoded instruction -/

/-- A host call in the schedule that decodes to an instruction: the step is `exec` of it, with the call taken from the
schedule (R275; the schedule is the model's, log entry 7). A code that is no operation answers BadOp and changes nothing
else (R276). -/
def Obligations.StepRunsTheHostOperation : Prop :=
  ∀ (s : State) (r : HostRequest) (rest : List Event), s.env.schedule = .hostCall r :: rest →
    (∀ i, decode s.params (.host r) = .ok i → step s = exec i { s with env := { s.env with schedule := rest } }) ∧
    (15 ≤ r.hop.toNat →
      step s = .next { s with
        out := { s.out with replies := s.out.replies ++ [⟨r.hop, .badOp, .none⟩] }
        env := { s.env with schedule := rest } })

/-- The last checksum byte of a frame, plain or escaped, with a matching checksum (R145, R148, R150, R15): when the stored
bytes decode to an instruction, the step is `exec` of it on the state after the receiver's update. -/
def Obligations.StepRunsTheReceivedFrame : Prop :=
  ∀ (s : State) (b v : Byte) (rest : List Event) (i : Instr), s.env.schedule = .rxByte b :: rest →
    s.running → s.ctl.cstate ≠ .initial → s.ctl.cstate ≠ .broadcastingStationId →
    s.params.wellFormed = true → ReceiverInv s.params s.rx → s.rx.rstate = .readingChecksum →
    ((s.rx.escPending = false ∧ b ≠ s.params.marker ∧ b ≠ s.params.esc ∧ v = b) ∨
      (s.rx.escPending = true ∧ b = s.params.markerLit ∧ v = s.params.marker) ∨
      (s.rx.escPending = true ∧ b = s.params.escLit ∧ v = s.params.esc)) →
    (s.rx.rchk ++ [v]).length = s.params.chkWidth.bytes →
    assemble s.params (s.rx.rchk ++ [v]) = chkFinal s.params s.rx.rcrc →
    decode s.params (.wire (s.params.marker :: s.rx.rbuf.toList.take s.rx.rcount.toNat)) = .ok i →
    step s = exec i { s with
      rx := { s.rx with
        escPending := false, rchk := s.rx.rchk ++ [v], framesOk := s.rx.framesOk + 1#32, rstate := .synchronizing }
      env := { s.env with schedule := rest } }

/-- The receiver reads what the codec writes (R116, R124, R141 to R150): from every receiver state, the bytes of a frame's
wire image run exactly that frame at the last byte, count it once, and count the abandoned frame if there was one. -/
def Obligations.ReceiverRunsEveryTransmittedFrame : Prop :=
  ∀ (s : State) (f : Frame) (rest : List Event), s.params.wellFormed = true → f.wellFormed = true →
    s.running → s.ctl.cstate ≠ .initial → s.ctl.cstate ≠ .broadcastingStationId →
    s.env.schedule = (wireImage s.params (frameLayout s.params f)).map Event.rxByte ++ rest →
    ∃ (t : State) (r : Receiver),
      runSteps ((wireImage s.params (frameLayout s.params f)).length - 1) s = .next t ∧
      step t = exec (Instr.ofFrame f) { s with rx := r, env := { s.env with schedule := rest } } ∧
      r.frame = f ∧ r.rstate = .synchronizing ∧ r.escPending = false ∧
      r.framesOk = s.rx.framesOk + 1#32 ∧ r.chkFails = s.rx.chkFails ∧
      r.framesIncomplete = (if s.rx.rstate = .synchronizing then s.rx.framesIncomplete
        else s.rx.framesIncomplete + 1#32)

/-! ## The receiver -/

/-- R154, R156: what each byte does to the three counters. One frame start ends in one count, and only a frame whose
checksum matches is handed on. -/
def Obligations.ReceiverCountersAccountForEveryByte : Prop :=
  ∀ (p : Params) (b : Byte) (r r' : Receiver) (v : RxVerdict), receiveByte p b r = (r', v) →
    (match v with
      | .frame f =>
        r'.framesOk = r.framesOk + 1#32 ∧ r'.framesIncomplete = r.framesIncomplete ∧ r'.chkFails = r.chkFails ∧
        r.rstate = .readingChecksum ∧ r'.rstate = .synchronizing ∧ r'.rcrc = r.rcrc ∧
        assemble p r'.rchk = chkFinal p r.rcrc ∧ f = r.frame
      | .checksumFail =>
        r'.framesOk = r.framesOk ∧ r'.framesIncomplete = r.framesIncomplete ∧ r'.chkFails = r.chkFails + 1#32 ∧
        r.rstate = .readingChecksum ∧ r'.rstate = .synchronizing ∧ r'.rcrc = r.rcrc ∧
        assemble p r'.rchk ≠ chkFinal p r.rcrc
      | .quiet =>
        r'.framesOk = r.framesOk ∧ r'.chkFails = r.chkFails ∧
        ((r'.framesIncomplete = r.framesIncomplete ∧
            (b = p.marker → r.rstate = .synchronizing)) ∨
          (r'.framesIncomplete = r.framesIncomplete + 1#32 ∧ r.rstate ≠ .synchronizing ∧
            (b = p.marker ∨
              (r.escPending = true ∧ b ≠ p.markerLit ∧ b ≠ p.escLit ∧ r'.rstate = .synchronizing)))))

/-- R141, R142, R143, R144, R149: a raw marker (which restarts the receiver in every state and counts the frame it
abandons), a byte in Synchronizing, an escape start, an escape violation and an idle line. -/
def Obligations.MarkersEscapesAndIdleInTheReceiver : Prop :=
  ∀ (s : State) (rest : List Event),
    s.running → s.ctl.cstate ≠ .initial → s.ctl.cstate ≠ .broadcastingStationId →
    (s.env.schedule = .rxByte s.params.marker :: rest →
      step s = .next { s with
        rx := { s.rx with
          rstate := .readingHeader, escPending := false, rcount := 0#5, rlen := 0#4, rchk := []
          rcrc := if s.params.chkCoversMarker then chkStep s.params s.params.chkInit s.params.marker
            else s.params.chkInit
          framesIncomplete := if s.rx.rstate = .synchronizing then s.rx.framesIncomplete
            else s.rx.framesIncomplete + 1#32 }
        env := { s.env with schedule := rest } }) ∧
    (∀ b, s.env.schedule = .rxByte b :: rest → b ≠ s.params.marker → s.rx.rstate = .synchronizing →
      step s = .next { s with env := { s.env with schedule := rest } }) ∧
    (s.env.schedule = .rxByte s.params.esc :: rest → s.params.wellFormed = true → s.rx.rstate ≠ .synchronizing →
      s.rx.escPending = false →
      step s = .next { s with
        rx := { s.rx with escPending := true }, env := { s.env with schedule := rest } }) ∧
    (∀ b, s.env.schedule = .rxByte b :: rest → b ≠ s.params.marker → b ≠ s.params.markerLit →
      b ≠ s.params.escLit → s.rx.rstate ≠ .synchronizing → s.rx.escPending = true →
      step s = .next { s with
        rx := { s.rx with
          framesIncomplete := s.rx.framesIncomplete + 1#32, rstate := .synchronizing, escPending := false }
        env := { s.env with schedule := rest } }) ∧
    (s.env.schedule = .rxIdle :: rest → s.rx.rstate ≠ .synchronizing →
      step s = .next { s with
        rx := { s.rx with
          framesIncomplete := s.rx.framesIncomplete + 1#32, rstate := .synchronizing, escPending := false }
        env := { s.env with schedule := rest } }) ∧
    (s.env.schedule = .rxIdle :: rest → s.rx.rstate = .synchronizing →
      step s = .next { s with env := { s.env with schedule := rest } })

/-- R151, R180: a checksum mismatch is counted by the receiver, and by `CK_COUNT` in the six active states, where the
`N_CHKFAIL`-th in a row enters Error; in Error it changes nothing more. -/
def Obligations.ChecksumMismatchIsCounted : Prop :=
  ∀ (s : State) (b : Byte) (rest : List Event) (r : Receiver), s.env.schedule = .rxByte b :: rest →
    s.running → s.ctl.cstate ≠ .initial → s.ctl.cstate ≠ .broadcastingStationId →
    receiveByte s.params b s.rx = (r, .checksumFail) →
    let t : State := { s with
      rx := r
      env := { s.env with schedule := rest } }
    let u : State := { t with ctl := { s.ctl with ckCount := s.ctl.ckCount + 1#32 } }
    r.chkFails = s.rx.chkFails + 1#32 ∧ r.rstate = .synchronizing ∧
    step s = .next
      (if s.ctl.cstate = .error then t
        else if s.params.nChkFail ≤ (s.ctl.ckCount + 1#32).toNat then enterError .repeatedChecksum u
        else u)

/-! ## A valid frame -/

/-- R179, its first lines: every valid frame goes to `RX_OUT` with the token count from before, `CK_COUNT` is cleared, and
a command frame is counted and releases the CMD waiters (R51); nothing else changes. -/
def Obligations.RecordingAFrame : Prop :=
  ∀ (f : Frame) (s : State),
    recordFrame f s = { s with
      out := { s.out with rxOut := s.out.rxOut ++ [⟨f, s.ctl.tokenCounter⟩] }
      ctl := { s.ctl with
        ckCount := 0#32
        rxCmdCounter := match f with
          | .headerOnly _ => s.ctl.rxCmdCounter
          | .command _ => s.ctl.rxCmdCounter + 1#32 }
      waiters := match f with
        | .headerOnly _ => s.waiters
        | .command _ => released .cmd s.waiters }

/-- R185: in Sensing the first valid frame of any kind moves the block to SlaveWaitingToJoin; a broadcast solicit is
answered in the same step (R241). -/
def Obligations.SensingMovesOnTheFirstFrame : Prop :=
  ∀ (i : Instr) (f : Frame) (s : State), i.frame? = some f → s.running → s.ctl.cstate = .sensing →
    let r := recordFrame f s
    let t : State := { r with
      ctl := { r.ctl with cstate := .slaveWaitingToJoin, peer := none, timer := some .joinWait }
      out := { r.out with logOut := r.out.logOut ++ [⟨.sensing, .slaveWaitingToJoin, .r185⟩] } }
    let answer := commandOnWire s.params s.wireId 0x3#4 f.hdr.src false []
    ((∀ d, i ≠ .solicitSuccessorRequest f.hdr d) ∨ f.hdr.bc = false → exec i s = .next t) ∧
    ((∃ d, i = .solicitSuccessorRequest f.hdr d) → f.hdr.bc = true → s.canSend answer →
      exec i s = .next ({ t with
        ctl := { t.ctl with peer := some f.hdr.src, timer := some .resp } }.sent answer))

/-- R181: a valid frame of any kind from this block's own id enters Error in the four states with an id in use. -/
def Obligations.DuplicateStationEntersError : Prop :=
  ∀ (i : Instr) (f : Frame) (s : State), i.frame? = some f → s.running → s.ctl.ownId = some f.hdr.src →
    (s.ctl.cstate = .master ∨ s.ctl.cstate = .slave ∨ s.ctl.cstate = .slaveWaitingForFirstToken ∨
      s.ctl.cstate = .slaveJoining) →
    exec i s = .next (enterError .duplicateStation (recordFrame f s))

/-- R303, R179: in Error every valid frame is recorded and changes nothing else. R46, R140 (the model's reading for
`exec`, log entry 14): while the receiver does not run, a frame of any kind is not seen and nothing changes; in
BroadcastingStationId it is a fault (R171). -/
def Obligations.FramesInErrorAndInInactiveBlocks : Prop :=
  ∀ (i : Instr) (f : Frame) (s : State), i.frame? = some f →
    (s.running → s.ctl.cstate = .error → exec i s = .next (recordFrame f s)) ∧
    (s.fatal = true ∨ s.opened = false ∨ s.ctl.cstate = .initial → exec i s = .next s) ∧
    (s.running → s.ctl.cstate = .broadcastingStationId → exec i s = .fault .unreachableState)

/-- R242, R249 to R253: SolicitSuccessorResponse, the data kinds and the reserved codes are recorded and have no other
effect in any running state but Sensing, unless the duplicate check takes them. -/
def Obligations.DataAndReservedKindsAreOnlyRecorded : Prop :=
  ∀ (h : Header) (d : List Byte) (s : State), s.running → s.ctl.cstate ≠ .initial →
    s.ctl.cstate ≠ .broadcastingStationId → s.ctl.cstate ≠ .sensing → s.ctl.ownId ≠ some h.src →
    ∀ x ∈ [(Instr.solicitSuccessorResponse h d, 0x2#4), (Instr.request h d, 0x9#4), (Instr.response h d, 0xA#4),
        (Instr.ack h d, 0xB#4), (Instr.busy h d, 0xC#4), (Instr.cmd0 h d, 0x0#4), (Instr.cmd13 h d, 0xD#4),
        (Instr.cmd14 h d, 0xE#4), (Instr.cmd15 h d, 0xF#4)],
      exec x.1 s = .next (recordFrame (.command ⟨h, x.2, d⟩) s)

/-! ## Frame kinds -/

/-- R240, R298: a token for this block is taken by a slave that holds none and by an idle master; in a block that already
holds one it enters Error with cause DuplicateToken. -/
def Obligations.TokenIsTakenOrIsADuplicate : Prop :=
  ∀ (h : Header) (s : State) (me : StationId), s.running → s.ctl.ownId = some me → h.bc = false → h.dest = me →
    h.src ≠ me →
    let r := recordFrame (.headerOnly h) s
    let t : State := { r with
      ctl := { r.ctl with
        holdsToken := true, tokenCounter := s.ctl.tokenCounter + 1#32, toCount := 0#32, timer := none }
      waiters := released .tok s.waiters }
    (s.ctl.cstate = .slave → s.ctl.holdsToken = false → exec (.token h) s = .next t) ∧
    (s.ctl.cstate = .master → s.ctl.mphase = .mIdle →
      exec (.token h) s = .next { t with ctl := { t.ctl with mphase := .mDrain } }) ∧
    ((s.ctl.cstate = .slave ∧ s.ctl.holdsToken = true) ∨ (s.ctl.cstate = .master ∧ s.ctl.mphase ≠ .mIdle) →
      exec (.token h) s = .next (enterError .duplicateToken r))

/-- R240, R327: the first token makes the block a Slave, is counted, and is passed on with no queued frame sent. -/
def Obligations.FirstTokenIsPassedOnUndrained : Prop :=
  ∀ (h : Header) (s : State) (me succ : StationId), s.running → s.ctl.cstate = .slaveWaitingForFirstToken →
    s.ctl.ownId = some me → s.ctl.successor = some succ → succ ≠ me → h.bc = false → h.dest = me → h.src ≠ me →
    s.canSend (tokenOnWire s.params me succ) →
    let r := recordFrame (.headerOnly h) s
    let t : State := { r with
      ctl := { r.ctl with
        cstate := .slave, holdsToken := false, tokenCounter := s.ctl.tokenCounter + 1#32, toCount := 0#32
        errRetries := 0#32, timer := some .token }
      waiters := released .tok s.waiters
      out := { r.out with logOut := r.out.logOut ++ [⟨.slaveWaitingForFirstToken, .slave, .r240⟩] } }
    exec (.token h) s = .next (t.sent (tokenOnWire s.params me succ))

/-- R240, R175: a token that is broadcast or for another station, or for a joiner without a place in the ring, is only
recorded. -/
def Obligations.TokenForOthersIsIgnored : Prop :=
  ∀ (h : Header) (s : State), s.running → s.ctl.cstate ≠ .initial → s.ctl.cstate ≠ .broadcastingStationId →
    s.ctl.cstate ≠ .sensing → s.ctl.ownId ≠ some h.src →
    (h.bc = true ∨ h.dest ≠ s.wireId ∨ s.ctl.cstate = .slaveWaitingToJoin ∨ s.ctl.cstate = .slaveJoining ∨
      s.ctl.cstate = .error) →
    exec (.token h) s = .next (recordFrame (.headerOnly h) s)

/-- R241: a joiner without a master answers a broadcast solicit at once with a GetAddressRequest; a master that hears one
enters Error; every other one is only recorded. -/
def Obligations.SolicitIsAnsweredByAJoiner : Prop :=
  ∀ (h : Header) (d : List Byte) (s : State), s.running → s.ctl.ownId ≠ some h.src →
    let r := recordFrame (.command ⟨h, 0x1#4, d⟩) s
    let answer := commandOnWire s.params s.wireId 0x3#4 h.src false []
    (s.ctl.cstate = .slaveWaitingToJoin → s.ctl.peer = none → h.bc = true → s.canSend answer →
      exec (.solicitSuccessorRequest h d) s = .next ({ r with
        ctl := { r.ctl with peer := some h.src, timer := some .resp } }.sent answer)) ∧
    (s.ctl.cstate = .master → exec (.solicitSuccessorRequest h d) s = .next (enterError .secondMaster r)) ∧
    (s.ctl.cstate = .slaveWaitingToJoin ∧ (s.ctl.peer ≠ none ∨ h.bc = false) ∨ s.ctl.cstate = .slaveJoining ∨
      s.ctl.cstate = .slaveWaitingForFirstToken ∨ s.ctl.cstate = .slave →
      exec (.solicitSuccessorRequest h d) s = .next r)

/-- R243: the soliciting master offers the lowest free id in two frames, and ignores the request when the ring is full. -/
def Obligations.MasterOffersAnAddress : Prop :=
  ∀ (h : Header) (d : List Byte) (s : State) (me : StationId), s.running → s.ctl.cstate = .master →
    s.ctl.mphase = .mSolicit → s.ctl.ownId = some me → h.bc = false → h.dest = me → h.src ≠ me →
    let r := recordFrame (.command ⟨h, 0x3#4, d⟩) s
    let nobody := s.params.unassignedWireId
    (s.assignId = none → exec (.getAddressRequest h d) s = .next r) ∧
    (∀ n, s.assignId = some n →
      let offer := commandOnWire s.params me 0x4#4 nobody false [] ++
        commandOnWire s.params me 0x5#4 nobody false [n.setWidth 8]
      s.canSend offer →
      exec (.getAddressRequest h d) s = .next ({ r with
        ctl := { r.ctl with
          pending := some n, mphase := .mWaitDevAck, toCount := 0#32, timer := some .resp } }.sent offer))

/-- R244: in SlaveWaitingToJoin the offer of the joiner's own master moves it to SlaveJoining; any other GetAddressResponse
is only recorded there (in the other states: FramesNoRuleNamesAreOnlyRecorded). -/
def Obligations.JoinerAcceptsItsMastersOffer : Prop :=
  ∀ (h : Header) (d : List Byte) (s : State), s.running → s.ctl.cstate = .slaveWaitingToJoin → s.ctl.ownId = none →
    let r := recordFrame (.command ⟨h, 0x4#4, d⟩) s
    (s.ctl.peer = some h.src → h.bc = false → h.dest = s.params.unassignedWireId →
      exec (.getAddressResponse h d) s = .next { r with
        ctl := { r.ctl with cstate := .slaveJoining, toCount := 0#32, timer := some .resp }
        out := { r.out with logOut := r.out.logOut ++ [⟨.slaveWaitingToJoin, .slaveJoining, .r244⟩] } }) ∧
    (s.ctl.peer ≠ some h.src ∨ h.bc = true ∨ h.dest ≠ s.params.unassignedWireId →
      exec (.getAddressResponse h d) s = .next r)

/-- R245: a joiner takes the id its master sets and acknowledges it from that id; an id above 63, the unassigned one or
the master's own is ignored. -/
def Obligations.JoinerTakesItsAddress : Prop :=
  ∀ (h : Header) (d : List Byte) (b : Byte) (s : State), s.running → s.ctl.cstate = .slaveJoining →
    s.ctl.ownId = none → s.ctl.peer = some h.src → h.bc = false → h.dest = s.params.unassignedWireId →
    let r := recordFrame (.command ⟨h, 0x5#4, b :: d⟩) s
    (∀ n : StationId, b.toNat = n.toNat → n ≠ s.params.unassignedWireId → n ≠ h.src →
      s.canSend (commandOnWire s.params n 0x6#4 h.src false [b]) →
      exec (.setDeviceAddressRequest h (b :: d)) s = .next ({ r with
        ctl := { r.ctl with ownId := some n, toCount := 0#32, timer := some .resp }
        }.sent (commandOnWire s.params n 0x6#4 h.src false [b]))) ∧
    (63 < b.toNat ∨ b.toNat = s.params.unassignedWireId.toNat ∨ b.toNat = h.src.toNat →
      exec (.setDeviceAddressRequest h (b :: d)) s = .next r) ∧
    (exec (.setDeviceAddressRequest h []) s = .next (recordFrame (.command ⟨h, 0x5#4, []⟩) s))

/-- R246: the pending station's acknowledgement makes the master tell it its ring successor. -/
def Obligations.MasterSetsTheNewStationsSuccessor : Prop :=
  ∀ (h : Header) (d : List Byte) (s : State) (me succ : StationId), s.running → s.ctl.cstate = .master →
    s.ctl.mphase = .mWaitDevAck → s.ctl.ownId = some me → h.src ≠ me →
    let r := recordFrame (.command ⟨h, 0x6#4, d⟩) s
    let order := commandOnWire s.params me 0x7#4 h.src false [succ.setWidth 8]
    (s.ctl.pending = some h.src → h.bc = false → h.dest = me →
      ringSucc h.src (insertId s.ctl.known me) = some succ → s.canSend order →
      exec (.setDeviceAddressResponse h d) s = .next ({ r with
        ctl := { r.ctl with mphase := .mWaitSuccAck, toCount := 0#32, timer := some .resp } }.sent order)) ∧
    (s.ctl.pending ≠ some h.src ∨ h.bc = true ∨ h.dest ≠ me →
      exec (.setDeviceAddressResponse h d) s = .next r)

/-- R247: a joiner that has its id takes its successor and waits for the first token; a member only re-points its
successor, its timer untouched; its own id, the unassigned id and a byte above 63 are ignored. -/
def Obligations.StationTakesItsSuccessor : Prop :=
  ∀ (h : Header) (d : List Byte) (b : Byte) (s : State) (me : StationId), s.running →
    (s.ctl.cstate = .slaveJoining ∨ s.ctl.cstate = .slaveWaitingForFirstToken ∨ s.ctl.cstate = .slave) →
    s.ctl.ownId = some me → h.src ≠ me → s.ctl.peer = some h.src → h.bc = false → h.dest = me →
    let r := recordFrame (.command ⟨h, 0x7#4, b :: d⟩) s
    let ack := commandOnWire s.params me 0x8#4 h.src false [b]
    (∀ n : StationId, b.toNat = n.toNat → n ≠ me → n ≠ s.params.unassignedWireId → s.canSend ack →
      let joined : State := { r with
        ctl := { r.ctl with
          successor := some n, toCount := 0#32, cstate := .slaveWaitingForFirstToken, timer := some .token }
        out := { r.out with logOut := r.out.logOut ++ [⟨.slaveJoining, .slaveWaitingForFirstToken, .r247⟩] } }
      let repointed : State := { r with ctl := { r.ctl with successor := some n, toCount := 0#32 } }
      exec (.setSuccessorAddressRequest h (b :: d)) s =
        .next ((if s.ctl.cstate = .slaveJoining then joined else repointed).sent ack)) ∧
    (63 < b.toNat ∨ b.toNat = me.toNat ∨ b.toNat = s.params.unassignedWireId.toNat →
      exec (.setSuccessorAddressRequest h (b :: d)) s = .next r) ∧
    (exec (.setSuccessorAddressRequest h []) s = .next (recordFrame (.command ⟨h, 0x7#4, []⟩) s))

/-- R248 in MWaitSuccAck: when the new station's ring predecessor is the master itself, the master takes it as its
successor and passes the token to it; otherwise it tells the predecessor. -/
def Obligations.MasterClosesTheRingOrRepointsThePredecessor : Prop :=
  ∀ (h : Header) (d : List Byte) (s : State) (me pred : StationId), s.running → s.ctl.cstate = .master →
    s.ctl.mphase = .mWaitSuccAck → s.ctl.ownId = some me → h.src ≠ me → s.ctl.pending = some h.src →
    h.bc = false → h.dest = me → ringPred h.src (insertId s.ctl.known me) = some pred →
    let r := recordFrame (.command ⟨h, 0x8#4, d⟩) s
    (pred = me → s.canSend (tokenOnWire s.params me h.src) →
      exec (.setSuccessorAddressResponse h d) s = .next ({ r with
        ctl := { r.ctl with
          successor := some h.src, known := insertId s.ctl.known h.src, pending := none, pendingPred := none
          toCount := 0#32, holdsToken := false, mphase := .mIdle, timer := some .token }
        }.sent (tokenOnWire s.params me h.src))) ∧
    (pred ≠ me → s.canSend (commandOnWire s.params me 0x7#4 pred false [h.src.setWidth 8]) →
      exec (.setSuccessorAddressResponse h d) s = .next ({ r with
        ctl := { r.ctl with
          pendingPred := some pred, toCount := 0#32, mphase := .mWaitPredAck, timer := some .resp }
        }.sent (commandOnWire s.params me 0x7#4 pred false [h.src.setWidth 8])))

/-- R248 in MWaitPredAck: the predecessor's acknowledgement admits the pending station and passes the token. -/
def Obligations.MasterAdmitsTheStation : Prop :=
  ∀ (h : Header) (d : List Byte) (s : State) (me succ new : StationId), s.running → s.ctl.cstate = .master →
    s.ctl.mphase = .mWaitPredAck → s.ctl.ownId = some me → h.src ≠ me → s.ctl.pendingPred = some h.src →
    s.ctl.pending = some new → h.bc = false → h.dest = me → s.ctl.successor = some succ → succ ≠ me →
    s.canSend (tokenOnWire s.params me succ) →
    let r := recordFrame (.command ⟨h, 0x8#4, d⟩) s
    exec (.setSuccessorAddressResponse h d) s = .next ({ r with
      ctl := { r.ctl with
        known := insertId s.ctl.known new, pending := none, pendingPred := none, toCount := 0#32
        holdsToken := false, mphase := .mIdle, timer := some .token } }.sent (tokenOnWire s.params me succ))

/-! ## Ring arithmetic -/

/-- R197: over a non-empty set the ring functions answer a member; it is the nearest above (below), or, where there is
none, the least (greatest) of the set. -/
def Obligations.RingNeighboursAreNearest : Prop :=
  ∀ (x : StationId) (set : BitVec 64), set ≠ 0#64 →
    (∃ y, ringSucc x set = some y ∧ member set y = true ∧
      ((x.toNat < y.toNat ∧ ∀ z, member set z = true → x.toNat < z.toNat → y.toNat ≤ z.toNat) ∨
        ((∀ z, member set z = true → z.toNat ≤ x.toNat) ∧ ∀ z, member set z = true → y.toNat ≤ z.toNat))) ∧
    (∃ y, ringPred x set = some y ∧ member set y = true ∧
      ((y.toNat < x.toNat ∧ ∀ z, member set z = true → z.toNat < x.toNat → z.toNat ≤ y.toNat) ∨
        ((∀ z, member set z = true → x.toNat ≤ z.toNat) ∧ ∀ z, member set z = true → z.toNat ≤ y.toNat)))

/-- R198: the assigned id is the lowest that is not the block's, not known and not the unassigned one; none only when
there is no such id. -/
def Obligations.AssignedIdIsTheLowestFree : Prop :=
  ∀ s : State,
    (∀ n, s.assignId = some n →
      (s.ctl.ownId ≠ some n ∧ member s.ctl.known n = false ∧ n ≠ s.params.unassignedWireId) ∧
      ∀ m : StationId, m.toNat < n.toNat →
        s.ctl.ownId = some m ∨ member s.ctl.known m = true ∨ m = s.params.unassignedWireId) ∧
    (s.assignId = none → ∀ m : StationId,
      s.ctl.ownId = some m ∨ member s.ctl.known m = true ∨ m = s.params.unassignedWireId)

/-! ## Host operations -/

/-- R260: `open` in its four cases; the transport's answer is `env.openOk`. -/
def Obligations.OpenAnswers : Prop :=
  ∀ (d : List Byte) (s : State),
    (s.fatal = true → exec (.openDevice d) s = .next (s.reply 0x00#8 .fatal .none)) ∧
    (s.fatal = false → s.opened = true → exec (.openDevice d) s = .next (s.reply 0x00#8 .badState .none)) ∧
    (s.fatal = false → s.opened = false → s.env.openOk = true →
      exec (.openDevice d) s = .next { s with
        opened := true
        out := { s.out with replies := s.out.replies ++ [⟨0x00#8, .ok, .none⟩] } }) ∧
    (s.fatal = false → s.opened = false → s.env.openOk = false →
      exec (.openDevice d) s = .next (s.reply 0x00#8 .openFailed .none))

/-- R261, R183, R184: `start` in its four cases; from Initial it enters Sensing with the role state cleared. -/
def Obligations.StartEntersSensing : Prop :=
  ∀ s : State,
    (s.fatal = true → exec .start s = .next (s.reply 0x01#8 .fatal .none)) ∧
    (s.fatal = false → s.opened = false → exec .start s = .next (s.reply 0x01#8 .notOpen .none)) ∧
    (s.fatal = false → s.opened = true → s.ctl.cstate ≠ .initial → s.ctl.cstate ≠ .broadcastingStationId →
      exec .start s = .next (s.reply 0x01#8 .badState .none)) ∧
    (s.fatal = false → s.opened = true → s.ctl.cstate = .initial →
      exec .start s = .next { s with
        ctl := { s.ctl with
          cstate := .sensing, timer := some .sense, toCount := 0#32, ckCount := 0#32, ownId := none
          successor := none, peer := none, known := 0#64, holdsToken := false, mphase := .mIdle, pending := none
          pendingPred := none }
        out := { s.out with
          logOut := s.out.logOut ++ [⟨.initial, .sensing, .start⟩]
          replies := s.out.replies ++ [⟨0x01#8, .ok, .none⟩] } })

/-- R102, R262: exactly the frames whose fields are in range, of type 1, are valid, and an EncodeError names the first
field that fails; R111, R112: an encoder refuses exactly the operands with a field out of range. -/
def Obligations.HostOperandsAreCheckedForRange : Prop :=
  ∀ (p : Params) (h : HostHeader) (c : HostCommand) (f : HostFrame),
    ((∃ bs, encodeHeaderBytes p h = .ok bs) ↔
      h.dest ≤ 63 ∧ h.src ≤ 63 ∧ h.ctr ≤ 3 ∧ h.bc ≤ 1 ∧ h.type ≤ 1) ∧
    ((∃ bs, encodeCommandBytes p c = .ok bs) ↔
      c.cmd ≤ 15 ∧ c.payload.length ≤ 15 ∧ (∀ b ∈ c.payload, b ≤ 255) ∧
        c.dest ≤ 63 ∧ c.src ≤ 63 ∧ c.ctr ≤ 3 ∧ c.bc ≤ 1) ∧
    (hostFrameError f = none ↔
      f.dest ≤ 63 ∧ f.src ≤ 63 ∧ f.ctr ≤ 3 ∧ f.bc ≤ 1 ∧ f.type = 1 ∧ f.cmd ≤ 15 ∧ f.payload.length ≤ 15 ∧
        ∀ b ∈ f.payload, b ≤ 255) ∧
    (∀ e, hostFrameError f = some e →
      match e with
      | .dest => 63 < f.dest
      | .src => f.dest ≤ 63 ∧ 63 < f.src
      | .ctr => f.dest ≤ 63 ∧ f.src ≤ 63 ∧ 3 < f.ctr
      | .bc => f.dest ≤ 63 ∧ f.src ≤ 63 ∧ f.ctr ≤ 3 ∧ 1 < f.bc
      | .type => f.dest ≤ 63 ∧ f.src ≤ 63 ∧ f.ctr ≤ 3 ∧ f.bc ≤ 1 ∧ f.type ≠ 1
      | .cmd => f.dest ≤ 63 ∧ f.src ≤ 63 ∧ f.ctr ≤ 3 ∧ f.bc ≤ 1 ∧ f.type = 1 ∧ 15 < f.cmd
      | .length => f.dest ≤ 63 ∧ f.src ≤ 63 ∧ f.ctr ≤ 3 ∧ f.bc ≤ 1 ∧ f.type = 1 ∧ f.cmd ≤ 15 ∧ 15 < f.payload.length
      | .payload => f.dest ≤ 63 ∧ f.src ≤ 63 ∧ f.ctr ≤ 3 ∧ f.bc ≤ 1 ∧ f.type = 1 ∧ f.cmd ≤ 15 ∧
          f.payload.length ≤ 15 ∧ ∃ b ∈ f.payload, 255 < b)

/-- R263, R264: `enqueueFrame` and `sendFrame` append a valid frame, with the fields the host gave, to the tail of the
queue in every controller state; Fatal, EncodeError and QueueFull change nothing. -/
def Obligations.EnqueueAppendsAValidFrame : Prop :=
  ∀ (x : Byte × (HostFrame → Instr)), x ∈ [(0x02#8, Instr.enqueueFrame), (0x03#8, Instr.sendFrame)] →
  ∀ (f : HostFrame) (s : State),
    (s.fatal = true → exec (x.2 f) s = .next (s.reply x.1 .fatal .none)) ∧
    (∀ e, s.fatal = false → hostFrameError f = some e →
      exec (x.2 f) s = .next (s.reply x.1 (.encodeError e) .none)) ∧
    (s.fatal = false → hostFrameError f = none → s.params.queueDepth = some s.ctl.txq.length →
      exec (x.2 f) s = .next (s.reply x.1 .queueFull .none)) ∧
    (s.fatal = false → hostFrameError f = none → s.params.queueDepth ≠ some s.ctl.txq.length →
      ∃ g : CommandFrame,
        exec (x.2 f) s = .next { s with
          ctl := { s.ctl with txq := s.ctl.txq ++ [g] }
          out := { s.out with replies := s.out.replies ++ [⟨x.1, .ok, .none⟩] } } ∧
        g.hdr.dest.toNat = f.dest ∧ g.hdr.bc.toNat = f.bc ∧ g.hdr.src.toNat = f.src ∧ g.hdr.ctr.toNat = f.ctr ∧
        g.cmd.toNat = f.cmd ∧ g.payload.map BitVec.toNat = f.payload)

/-- R265, R266, R268, R274, R277: the reads answer in every state the block can be in, stopped or not, and change nothing
but their answer. -/
def Obligations.ReadsAnswerAndChangeNothing : Prop :=
  ∀ s : State, s.ctl.cstate ≠ .broadcastingStationId →
    exec .getState s = .next (s.reply 0x04#8 .ok (.stateCode
      (match s.ctl.cstate with
        | .initial => 0#4
        | .sensing => 1#4
        | .broadcastingStationId => 2#4
        | .master => 3#4
        | .slaveWaitingToJoin => 4#4
        | .slaveJoining => 5#4
        | .slave => 6#4
        | .slaveWaitingForFirstToken => 7#4
        | .error => 8#4))) ∧
    exec .isReady s = .next (s.reply 0x05#8 .ok (.ready
      (decide ((s.ctl.cstate = .master ∨ s.ctl.cstate = .slave) ∧ s.ctl.persistFail = false ∧ s.fatal = false)))) ∧
    exec .readCounters s =
      .next (s.reply 0x07#8 .ok (.counters s.rx.framesOk s.rx.framesIncomplete s.rx.chkFails)) ∧
    exec .readStatus s = .next (s.reply 0x0D#8 .ok (.statusRecord
      { state := s.ctl.cstate.code, ownId := s.ctl.ownId, successor := s.ctl.successor
        lastError := s.ctl.lastError, tokenCount := s.ctl.tokenCounter, rxCmdCount := s.ctl.rxCmdCounter
        queueLength := s.ctl.txq.length, persistFail := s.ctl.persistFail, fatal := s.fatal, opened := s.opened }))

/-- R267, R269: a wait adds an unfired waiter of its kind and returns nothing yet; in a stopped block it returns Fatal at
once. Its return step removes the waiter: Ok once fired, Fatal once the block has stopped. -/
def Obligations.WaitsAddAndReturnTheirWaiter : Prop :=
  ∀ (x : Byte × Instr × WaiterKind),
    x ∈ [(0x06#8, Instr.waitForCommandFrame, WaiterKind.cmd), (0x08#8, Instr.waitForToken, WaiterKind.tok)] →
  ∀ (s : State) (rest : List Event) (fired : Bool),
    (s.fatal = true → exec x.2.1 s = .next (s.reply x.1 .fatal .none)) ∧
    (s.fatal = false → exec x.2.1 s = .next { s with waiters := s.waiters ++ [⟨x.2.2, false⟩] }) ∧
    (s.env.schedule = .waitReturn ⟨x.2.2, true⟩ .ok :: rest → ⟨x.2.2, true⟩ ∈ s.waiters →
      step s = .next { s with
        waiters := s.waiters.erase ⟨x.2.2, true⟩
        out := { s.out with replies := s.out.replies ++ [⟨x.1, .ok, .none⟩] }
        env := { s.env with schedule := rest } }) ∧
    (s.env.schedule = .waitReturn ⟨x.2.2, fired⟩ .fatal :: rest → ⟨x.2.2, fired⟩ ∈ s.waiters → s.fatal = true →
      step s = .next { s with
        waiters := s.waiters.erase ⟨x.2.2, fired⟩
        out := { s.out with replies := s.out.replies ++ [⟨x.1, .fatal, .none⟩] }
        env := { s.env with schedule := rest } })

/-- R270 to R273, R277: the codec operations answer the codec's functions in every state and change nothing else.
R119, R120: when the decoders answer Short, NoMarker and Length, and when they decode, to which fields (R93). -/
def Obligations.CodecOperationsAnswerTheCodec : Prop :=
  ∀ (p : Params) (b0 b1 b2 : Byte) (tail : List Byte),
    (∀ (h : HostHeader) (c : HostCommand) (bs : List Byte) (s : State),
      (∀ r, encodeHeaderBytes s.params h = r → exec (.encodeHeader h) s = .next (match r with
        | .ok out => s.reply 0x09#8 .ok (.bytes out)
        | .error e => s.reply 0x09#8 (.encodeError e) .none)) ∧
      (∀ r, encodeCommandBytes s.params c = r → exec (.encodeCommandFrame c) s = .next (match r with
        | .ok out => s.reply 0x0A#8 .ok (.bytes out)
        | .error e => s.reply 0x0A#8 (.encodeError e) .none)) ∧
      (∀ r, decodeHeaderBytes s.params bs = r → exec (.decodeHeader bs) s = .next (match r with
        | .ok d => s.reply 0x0B#8 .ok (.header d)
        | .error k => s.reply 0x0B#8 (.decodeError k) .none)) ∧
      (∀ r, decodeFrameBytes s.params bs = r → exec (.decodeFrame bs) s = .next (match r with
        | .ok f => s.reply 0x0C#8 .ok (.frame f)
        | .error k => s.reply 0x0C#8 (.decodeError k) .none))) ∧
    (∀ bs : List Byte, bs.length < 3 →
      decodeHeaderBytes p bs = .error .short ∧ decodeFrameBytes p bs = .error .short) ∧
    (b0 ≠ p.marker → decodeHeaderBytes p (b0 :: b1 :: b2 :: tail) = .error .noMarker ∧
      decodeFrameBytes p (b0 :: b1 :: b2 :: tail) = .error .noMarker) ∧
    (decodeHeaderBytes p (p.marker :: b1 :: b2 :: tail) = .ok ⟨destOf b1, bcOf b1, typeOf b1, srcOf b2, ctrOf b2⟩) ∧
    ((destOf b1).toNat = b1.toNat / 4 ∧ (bcOf b1).toNat = b1.toNat / 2 % 2 ∧ (typeOf b1).toNat = b1.toNat % 2 ∧
      (srcOf b2).toNat = b2.toNat / 4 ∧ (ctrOf b2).toNat = b2.toNat % 4) ∧
    (typeOf b1 = false → (decodeFrameBytes p (p.marker :: b1 :: b2 :: tail) =
      if tail = [] then .ok (.headerOnly ⟨destOf b1, bcOf b1, srcOf b2, ctrOf b2⟩) else .error .length)) ∧
    (typeOf b1 = true → decodeFrameBytes p [p.marker, b1, b2] = .error .short) ∧
    (∀ b3, typeOf b1 = true → (decodeFrameBytes p (p.marker :: b1 :: b2 :: b3 :: tail) =
      if tail.length = (lenOf b3).toNat then
        .ok (.command ⟨⟨destOf b1, bcOf b1, srcOf b2, ctrOf b2⟩, cmdOf b3, tail⟩)
      else .error .length))

/-- R320, R321: `reset`, in every state, gives every register its reset value and drops the waiters; parameters,
histories and the environment stay. (`RBUF`'s value is the model's choice and is left out, log entry 12.) -/
def Obligations.ResetRestoresEveryRegister : Prop :=
  ∀ s : State, ∃ t, exec .reset s = .next t ∧
    t.ctl = ⟨.initial, none, none, none, 0#64, false, .mIdle, none, none, none, 0#32, 0#32, 0#32, false, 0#8, 0#32,
      0#32, []⟩ ∧
    t.rx = ⟨.synchronizing, false, t.rx.rbuf, 0#5, 0#4, s.params.chkInit, [], 0#32, 0#32, 0#32⟩ ∧
    t.fatal = false ∧ t.opened = false ∧ t.waiters = [] ∧ t.params = s.params ∧ t.env = s.env ∧
    t.out = { s.out with replies := s.out.replies ++ [⟨0x0E#8, .ok, .none⟩] }

/-! ## Timers, errors, tenure -/

/-- R186: with no traffic in the sensing window the block elects itself master and takes the token. -/
def Obligations.SensingTimeoutElectsMaster : Prop :=
  ∀ (s : State) (rest : List Event), s.env.schedule = .timeout .sense :: rest → s.fatal = false →
    s.ctl.cstate = .sensing → s.ctl.timer = some .sense →
    step s = .next { s with
      ctl := { s.ctl with
        cstate := .master, ownId := some s.params.masterStationId, successor := some s.params.masterStationId
        known := 0#64, holdsToken := true, tokenCounter := s.ctl.tokenCounter + 1#32, mphase := .mDrain
        errRetries := 0#32, toCount := 0#32, timer := none }
      waiters := released .tok s.waiters
      out := { s.out with logOut := s.out.logOut ++ [⟨.sensing, .master, .r186⟩] }
      env := { s.env with schedule := rest } }

/-- R178, R193, R194, R195: a joiner's timeout is counted; below `N_TIMEOUT` the joiner waits on, at `N_TIMEOUT` it enters
Error with cause RepeatedTimeouts. -/
def Obligations.JoinerTimeoutsAreCounted : Prop :=
  ∀ (s : State) (rest : List Event) (k : TimerKind), s.env.schedule = .timeout k :: rest → s.fatal = false →
    s.ctl.timer = some k →
    (s.ctl.cstate = .slaveWaitingToJoin ∧ (k = .joinWait ∨ k = .resp) ∨ s.ctl.cstate = .slaveJoining ∧ k = .resp) →
    let t : State := { s with
      ctl := { s.ctl with
        timer := none
        peer := if s.ctl.cstate = .slaveWaitingToJoin ∧ k = .resp then none else s.ctl.peer
        toCount := s.ctl.toCount + 1#32 }
      env := { s.env with schedule := rest } }
    step s = .next
      (if s.params.nTimeout ≤ (s.ctl.toCount + 1#32).toNat then enterError .repeatedTimeouts t
        else { t with ctl := { t.ctl with
          timer := if s.ctl.cstate = .slaveWaitingToJoin then some .joinWait else some .resp } })

/-- R190, R191, R192: a master whose join window closes, or whose reply timer expires below `N_TIMEOUT`, forgets the
dialogue and passes the token, or takes it again when it is alone. -/
def Obligations.MasterTimeoutsPassTheToken : Prop :=
  ∀ (s : State) (rest : List Event) (me succ : StationId) (k : TimerKind), s.env.schedule = .timeout k :: rest →
    s.fatal = false → s.ctl.timer = some k → s.ctl.cstate = .master → s.ctl.ownId = some me →
    s.ctl.successor = some succ →
    (k = .joinWin ∧ s.ctl.mphase = .mSolicit ∨
      k = .resp ∧ (s.ctl.mphase = .mWaitDevAck ∨ s.ctl.mphase = .mWaitSuccAck ∨ s.ctl.mphase = .mWaitPredAck)) →
    let count := if k = .resp then s.ctl.toCount + 1#32 else s.ctl.toCount
    let t : State := { s with
      ctl := { s.ctl with
        timer := none, toCount := count
        pending := if k = .resp then none else s.ctl.pending
        pendingPred := if k = .resp then none else s.ctl.pendingPred }
      env := { s.env with schedule := rest } }
    (k = .resp → s.params.nTimeout ≤ count.toNat → step s = .next (enterError .repeatedTimeouts t)) ∧
    ((k = .resp → count.toNat < s.params.nTimeout) → succ = me →
      step s = .next { t with
        ctl := { t.ctl with
          holdsToken := true, tokenCounter := s.ctl.tokenCounter + 1#32, mphase := .mDrain, toCount := 0#32 }
        waiters := released .tok s.waiters }) ∧
    ((k = .resp → count.toNat < s.params.nTimeout) → succ ≠ me → s.canSend (tokenOnWire s.params me succ) →
      step s = .next ({ t with
        ctl := { t.ctl with
          holdsToken := false, timer := some .token, mphase := .mIdle, pending := none, pendingPred := none }
        }.sent (tokenOnWire s.params me succ)))

/-- R196: one expiry of the token timer enters Error with cause TokenLost. -/
def Obligations.LostTokenEntersError : Prop :=
  ∀ (s : State) (rest : List Event), s.env.schedule = .timeout .token :: rest → s.fatal = false →
    s.ctl.timer = some .token →
    (s.ctl.cstate = .slave ∨ s.ctl.cstate = .slaveWaitingForFirstToken ∨
      s.ctl.cstate = .master ∧ s.ctl.mphase = .mIdle) →
    step s = .next (enterError .tokenLost { s with
      ctl := { s.ctl with timer := none }
      env := { s.env with schedule := rest } })

/-- R296, R291: what entering Error writes; the queue, the counters, the receiver and the rest stay. -/
def Obligations.ErrorEntryWritesItsRegisters : Prop :=
  ∀ (cause : ErrorCause) (s : State),
    enterError cause s = { s with
      ctl :=
        { cstate := .error, ownId := none, successor := none, peer := none, known := 0#64, holdsToken := false
          mphase := .mIdle, pending := none, pendingPred := none, timer := none, toCount := 0#32, ckCount := 0#32
          errRetries := s.ctl.errRetries + 1#32
          persistFail :=
            s.ctl.persistFail || decide (s.params.nRetry < (s.ctl.errRetries + 1#32).toNat)
          lastError := (match cause with
            | .repeatedTimeouts => 3#8
            | .tokenLost => 4#8
            | .repeatedChecksum => 5#8
            | .duplicateStation => 6#8
            | .duplicateToken => 7#8
            | .secondMaster => 8#8)
          tokenCounter := s.ctl.tokenCounter, rxCmdCounter := s.ctl.rxCmdCounter, txq := s.ctl.txq }
      out := { s.out with logOut := s.out.logOut ++ [⟨s.ctl.cstate, .error, .stateError cause⟩] } }

/-- R297: the exit from Error re-enters Sensing and restores nothing; with `PERSIST_FAIL` set it never happens
(the event lapses, log entry 8). -/
def Obligations.ErrorExitReentersSensing : Prop :=
  ∀ (s : State) (rest : List Event), s.env.schedule = .errorExit :: rest → s.fatal = false →
    s.ctl.cstate = .error →
    (s.ctl.persistFail = false →
      step s = .next { s with
        ctl := { s.ctl with
          cstate := .sensing, timer := some .sense, toCount := 0#32, ckCount := 0#32, ownId := none
          successor := none, peer := none, known := 0#64, holdsToken := false, mphase := .mIdle, pending := none
          pendingPred := none }
        out := { s.out with logOut := s.out.logOut ++ [⟨.error, .sensing, .recover⟩] }
        env := { s.env with schedule := rest } }) ∧
    (s.ctl.persistFail = true → step s = .next { s with env := { s.env with schedule := rest } })

/-- R293, R152, R173: a failing read stops the block, and so does a failing write, whose accepted bytes stay on
`WIRE_OUT`. -/
def Obligations.TransportFailureStopsTheBlock : Prop :=
  ∀ (s : State) (rest : List Event),
    (s.env.schedule = .rxFail :: rest → s.running → s.ctl.cstate ≠ .initial →
      s.ctl.cstate ≠ .broadcastingStationId →
      step s = .next { s with
        fatal := true
        ctl := { s.ctl with lastError := 1#8 }
        out := { s.out with logOut := s.out.logOut ++ [⟨s.ctl.cstate, s.ctl.cstate, .fatal .read⟩] }
        env := { s.env with schedule := rest } }) ∧
    (∀ (layout : List Byte) (room : Nat), s.env.writeRoom = some room → room < (wireImage s.params layout).length →
      transmit layout s = .ended { s with
        fatal := true
        ctl := { s.ctl with lastError := 2#8 }
        out := { s.out with
          wireOut := s.out.wireOut ++ (wireImage s.params layout).take room
          logOut := s.out.logOut ++ [⟨s.ctl.cstate, s.ctl.cstate, .fatal .write⟩] }
        env := { s.env with schedule := s.env.schedule, writeRoom := some 0 } })

/-- R187, R99, R188: a slave that holds the token sends its oldest frames, at most `MAX_TX_PER_TOKEN`, each from its own
id, and then passes the token. -/
def Obligations.SlaveTenureDrainsAndPasses : Prop :=
  ∀ (s : State) (rest : List Event) (me succ : StationId), s.env.schedule = .tenure :: rest → s.fatal = false →
    s.ctl.cstate = .slave → s.ctl.holdsToken = true → s.ctl.ownId = some me → s.ctl.successor = some succ →
    succ ≠ me →
    let n := tenureCount s.params s.ctl.txq.length
    let bytes := (s.ctl.txq.take n).flatMap (queuedOnWire s.params me) ++ tokenOnWire s.params me succ
    s.canSend bytes →
    step s = .next ({ s with
      ctl := { s.ctl with txq := s.ctl.txq.drop n, holdsToken := false, timer := some .token }
      env := { s.env with schedule := rest } }.sent bytes)

/-- R187, R99, R189: a master in its tenure sends its oldest frames likewise, and then solicits, keeping the token. -/
def Obligations.MasterTenureDrainsAndSolicits : Prop :=
  ∀ (s : State) (rest : List Event) (me : StationId), s.env.schedule = .tenure :: rest → s.fatal = false →
    s.ctl.cstate = .master → s.ctl.mphase = .mDrain → s.ctl.holdsToken = true → s.ctl.ownId = some me →
    let n := tenureCount s.params s.ctl.txq.length
    let bytes := (s.ctl.txq.take n).flatMap (queuedOnWire s.params me) ++
      commandOnWire s.params me 0x1#4 0#6 true []
    s.canSend bytes →
    step s = .next ({ s with
      ctl := { s.ctl with txq := s.ctl.txq.drop n, mphase := .mSolicit, timer := some .joinWin }
      env := { s.env with schedule := rest } }.sent bytes)

/-! ## The whole machine -/

/-- The invariant of the receiver, the queue, the role registers, the counts, the phase and the timer is kept by every
step from every state that has it (R22 to R44, R171, R177, R188). -/
def Obligations.EveryStepKeepsTheInvariant : Prop :=
  ∀ s t : State, s.Inv → step s = .next t → t.Inv

/-- The state after reset has the invariant, for every parameter the spec admits (R321). -/
def Obligations.ResetStateHasTheInvariant : Prop :=
  State.reset.Inv ∧ ∀ p : Params, p.wellFormed = true → (State.resetWith p).Inv

/-- A state with the invariant never faults: every step answers a next state (R171: unreachable). -/
def Obligations.NoStepFaultsUnderTheInvariant : Prop :=
  ∀ s : State, s.Inv → ∃ t, step s = .next t

/-- R39, R277, R293: in a stopped block no step but `reset` changes a register, the output streams of the wire, the frames
or the log. -/
def Obligations.StoppedBlockIsFrozenUntilReset : Prop :=
  ∀ s t : State, s.fatal = true → ¬ s.resetNext → step s = .next t →
    t.rx = s.rx ∧ t.ctl = s.ctl ∧ t.fatal = true ∧ t.opened = s.opened ∧ t.params = s.params ∧
    t.out.wireOut = s.out.wireOut ∧ t.out.rxOut = s.out.rxOut ∧ t.out.logOut = s.out.logOut

/-- R38, R297: with `PERSIST_FAIL` set the block stays in Error, not ready, until reset. -/
def Obligations.PersistentFailureLastsUntilReset : Prop :=
  ∀ s t : State, s.ctl.cstate = .error → s.ctl.persistFail = true → ¬ s.resetNext → step s = .next t →
    t.ctl.cstate = .error ∧ t.ctl.persistFail = true ∧ t.ready = false

/-- R47, R50: no step writes a parameter, and the histories only grow at their end. -/
def Obligations.HistoriesOnlyGrow : Prop :=
  ∀ s t : State, step s = .next t →
    t.params = s.params ∧ s.out.wireOut <+: t.out.wireOut ∧ s.out.rxOut <+: t.out.rxOut ∧
    s.out.logOut <+: t.out.logOut ∧ s.out.replies <+: t.out.replies

/-- R172: every change of `CSTATE` by a step other than `reset` is logged in that step, from its old to its new value; a
step that leaves it unchanged logs at most a fatal record. -/
def Obligations.EveryStateChangeIsLogged : Prop :=
  ∀ s t : State, ¬ s.resetNext → step s = .next t →
    ∃ new, t.out.logOut = s.out.logOut ++ new ∧
      (t.ctl.cstate ≠ s.ctl.cstate → ∃ c, ⟨s.ctl.cstate, t.ctl.cstate, c⟩ ∈ new) ∧
      (t.ctl.cstate = s.ctl.cstate → ∀ r ∈ new, r.fromState = s.ctl.cstate ∧ r.toState = s.ctl.cstate ∧
        ∃ kind, r.cause = .fatal kind)

/-- R298: a step that enters Error does so by one of the six StateErrors, and says which in `LAST_ERROR`. -/
def Obligations.OnlyStateErrorsEnterError : Prop :=
  ∀ s t : State, step s = .next t → s.ctl.cstate ≠ .error → t.ctl.cstate = .error →
    ∃ cause : ErrorCause, t.ctl.lastError = cause.code ∧
      t.out.logOut = s.out.logOut ++ [⟨s.ctl.cstate, .error, .stateError cause⟩] ∧
      t.ctl.errRetries = s.ctl.errRetries + 1#32

/-- R305, R71: a host operation other than `start` and `reset` changes no register of the FSM and no receiver register:
the queue (by `enqueueFrame` and `sendFrame`), `OPENED` (by `open`) and the waiters are all it can write. -/
def Obligations.HostReachesTheFsmOnlyByStartAndReset : Prop :=
  ∀ (i : Instr) (s t : State), i.frame? = none → i ≠ .start → i ≠ .reset → exec i s = .next t →
    t.rx = s.rx ∧ t.fatal = s.fatal ∧ t.params = s.params ∧ t.env = s.env ∧
    t.ctl = { s.ctl with txq := t.ctl.txq } ∧
    t.out = { s.out with replies := t.out.replies } ∧
    ((∀ f, i ≠ .enqueueFrame f ∧ i ≠ .sendFrame f) → t.ctl.txq = s.ctl.txq) ∧
    ((∀ d, i ≠ .openDevice d) → t.opened = s.opened) ∧
    (i ≠ .waitForCommandFrame → i ≠ .waitForToken → t.waiters = s.waiters)

/-- R43, R73, R170, R200: apart from `reset`, a step leaves the queue, appends one frame to its tail, or removes frames from
its head, and then it is an enabled Tenure: the block holds the token as Master in MDrain or as Slave. A Tenure or a
`Timeout(k)` that is not enabled (R170, R176) changes nothing but the schedule, from which it lapses (log entry 8). -/
def Obligations.QueueIsFifoAndDisabledStepsLapse : Prop :=
  (∀ s t : State, ¬ s.resetNext → step s = .next t →
    t.ctl.txq = s.ctl.txq ∨ (∃ g, t.ctl.txq = s.ctl.txq ++ [g]) ∨
      ((∃ rest, s.env.schedule = .tenure :: rest) ∧ s.fatal = false ∧ s.ctl.holdsToken = true ∧
        (s.ctl.cstate = .master ∧ s.ctl.mphase = .mDrain ∨ s.ctl.cstate = .slave) ∧
        ∃ n, t.ctl.txq = s.ctl.txq.drop n)) ∧
  (∀ (s : State) (rest : List Event), s.env.schedule = .tenure :: rest → s.ctl.cstate ≠ .broadcastingStationId →
    (s.fatal = true ∨ s.ctl.holdsToken = false ∨
      (s.ctl.cstate ≠ .master ∨ s.ctl.mphase ≠ .mDrain) ∧ s.ctl.cstate ≠ .slave) →
    step s = .next { s with env := { s.env with schedule := rest } }) ∧
  (∀ (s : State) (rest : List Event) (k : TimerKind), s.env.schedule = .timeout k :: rest →
    s.ctl.cstate ≠ .broadcastingStationId → (s.fatal = true ∨ s.ctl.timer ≠ some k) →
    step s = .next { s with env := { s.env with schedule := rest } })

/-! ## Several stations -/

/-- R308, R158: the medium carries a station's next byte to every other station's receiver, in order, and not to the
sender; no block takes a step by it. -/
def Obligations.MediumCarriesToEveryOtherStation : Prop :=
  ∀ (bus : Bus) (i j : Nat) (sender x : Station) (b : Byte), bus[i]? = some sender → bus[j]? = some x →
    sender.block.out.wireOut[sender.carried]? = some b →
    ∃ y, (Bus.carry i bus)[j]? = some y ∧
      (j = i → y = { x with carried := x.carried + 1 }) ∧
      (j ≠ i → y = { x with block := { x.block with
        env := { x.block.env with schedule := x.block.env.schedule ++ [.rxByte b] } } })

/-! ## Frames that no rule names -/

/-- R182, R199: a frame of the address dialogue, code 0x3 to 0x8, for which a condition of its kind's rule (R243 to R248)
fails is recorded and changes nothing else, in every running state but Sensing and unless the duplicate check takes it:
the wrong state or phase, the wrong source, a broadcast, another destination, an id already set, an unusable id. -/
def Obligations.FramesNoRuleNamesAreOnlyRecorded : Prop :=
  ∀ (h : Header) (d : List Byte) (s : State), s.running → s.ctl.cstate ≠ .initial →
    s.ctl.cstate ≠ .broadcastingStationId → s.ctl.cstate ≠ .sensing → s.ctl.ownId ≠ some h.src →
    let others := h.bc = true ∨ h.dest ≠ s.wireId
    (s.ctl.cstate ≠ .master ∨ s.ctl.mphase ≠ .mSolicit ∨ others →
      exec (.getAddressRequest h d) s = .next (recordFrame (.command ⟨h, 0x3#4, d⟩) s)) ∧
    (s.ctl.cstate ≠ .slaveWaitingToJoin ∨ s.ctl.peer ≠ some h.src ∨ others →
      exec (.getAddressResponse h d) s = .next (recordFrame (.command ⟨h, 0x4#4, d⟩) s)) ∧
    (s.ctl.cstate ≠ .slaveJoining ∨ s.ctl.ownId ≠ none ∨ s.ctl.peer ≠ some h.src ∨ others ∨
        ¬ usableId s.params s.ctl.peer d →
      exec (.setDeviceAddressRequest h d) s = .next (recordFrame (.command ⟨h, 0x5#4, d⟩) s)) ∧
    (s.ctl.cstate ≠ .master ∨ s.ctl.mphase ≠ .mWaitDevAck ∨ s.ctl.pending ≠ some h.src ∨ others →
      exec (.setDeviceAddressResponse h d) s = .next (recordFrame (.command ⟨h, 0x6#4, d⟩) s)) ∧
    ((s.ctl.cstate ≠ .slaveJoining ∧ s.ctl.cstate ≠ .slaveWaitingForFirstToken ∧ s.ctl.cstate ≠ .slave) ∨
        s.ctl.ownId = none ∨ s.ctl.peer ≠ some h.src ∨ others ∨ ¬ usableId s.params s.ctl.ownId d →
      exec (.setSuccessorAddressRequest h d) s = .next (recordFrame (.command ⟨h, 0x7#4, d⟩) s)) ∧
    (s.ctl.cstate ≠ .master ∨ (s.ctl.mphase ≠ .mWaitSuccAck ∨ s.ctl.pending ≠ some h.src) ∧
        (s.ctl.mphase ≠ .mWaitPredAck ∨ s.ctl.pendingPred ≠ some h.src) ∨ others →
      exec (.setSuccessorAddressResponse h d) s = .next (recordFrame (.command ⟨h, 0x8#4, d⟩) s))
end

