-- ==== Sys2Proof/Laws/Codec.lean ====
section
/-! SUPPORT. The checksum parameters as data: every total function that spec/00_scope.md R7 admits for `CHK_STEP` and
`CHK_FINAL` is named by some value of the parameters (log entry 3). -/

namespace Sys2Proof.Machine

open Sys2Proof

/-- A list filled from a function holds the function's value at each of its indexes. -/
theorem getD_map_range {α : Type} (f : Nat → α) (d : α) {n i : Nat} (h : i < n) :
    ((List.range n).map f).getD i d = f i := by
  simp [List.getD_eq_getElem?_getD, h]

/-- Every total `CHK_STEP` is an argument of the model, in both widths. -/
theorem chkStep_any (p : Params) (f : ChkReg → Byte → ChkReg) :
    ∃ values, ∀ c b, chkStep { p with chkStepFn := .table values } c b = chkTrunc p (f c b) := by
  refine ⟨(List.range (256 * 2 ^ 16)).map fun i => f (BitVec.ofNat 16 (i / 256)) (BitVec.ofNat 8 (i % 256)),
    fun c b => ?_⟩
  have hc := c.isLt
  have hb := b.isLt
  have hd : (256 * c.toNat + b.toNat) / 256 = c.toNat := by omega
  have hm : (256 * c.toNat + b.toNat) % 256 = b.toNat := by omega
  simp only [chkStep, chkTrunc]
  rw [getD_map_range _ _ (by omega), hd, hm, BitVec.ofNat_toNat, BitVec.ofNat_toNat, BitVec.setWidth_eq,
    BitVec.setWidth_eq]

/-- Every total `CHK_FINAL` is an argument of the model, in both widths. -/
theorem chkFinal_any (p : Params) (f : ChkReg → ChkReg) :
    ∃ values, ∀ c, chkFinal { p with chkFinalFn := .table values } c = chkTrunc p (f c) := by
  refine ⟨(List.range (2 ^ 16)).map fun i => f (BitVec.ofNat 16 i), fun c => ?_⟩
  have hc := c.isLt
  simp only [chkFinal, chkTrunc]
  rw [getD_map_range _ _ hc, BitVec.ofNat_toNat, BitVec.setWidth_eq]

/-- In a 16-bit register nothing is cut. -/
theorem chkTrunc_w16 (p : Params) (c : ChkReg) (h : p.chkWidth = .w16) : chkTrunc p c = c := by
  simp [chkTrunc, h]

/-- An 8-bit checksum stands in the low byte. -/
theorem chkTrunc_w8 (p : Params) (c : ChkReg) (h : p.chkWidth = .w8) : (chkTrunc p c).toNat = c.toNat % 256 := by
  simp only [chkTrunc, h, BitVec.toNat_and, BitVec.toNat_ofNat]
  exact Nat.and_two_pow_sub_one_eq_mod c.toNat 8

/-- The default pair of R7 and R117: the CRC and the identity. -/
theorem chkStep_profile (c : ChkReg) (b : Byte) : chkStep Params.profile c b = kermitStep c b := rfl

theorem chkFinal_profile (c : ChkReg) : chkFinal Params.profile c = c := BitVec.xor_zero

end Sys2Proof.Machine
end

