-- ==== Sys2Proof/Laws/Fairness.lean ====
section
/-! SUPPORT. What weak fairness gives of the receiver (spec/70_reset_and_hazards.md R333): a pending event of a block that
keeps running is taken. -/

namespace Sys2Proof.Machine

open Sys2Proof

/-- A receiver event that is the oldest pending one stays it until it is taken. -/
theorem pendingFollows_head {e taken : Event} {before after : List Event} (h : pendingFollows taken before after)
    (hp : before.head? = some e) (hne : taken ≠ e) : after.head? = some e := by
  cases before with
  | nil => cases hp
  | cons x rest =>
    cases hp
    unfold pendingFollows at h
    split at h
    · obtain ⟨_, _, hx, -⟩ := h
      cases hx
      exact absurd rfl hne
    · obtain ⟨more, rfl⟩ := h
      rfl

/-- In a valid and weakly fair run, the oldest pending receiver event of a block that stays active is taken. -/
theorem Run.Valid.pending_taken {r : Run} (hv : r.Valid) (hf : r.WeaklyFair) {e : Event} {n : Nat}
    (hp : (r.pendingAt n).head? = some e) (ha : ∀ m, n ≤ m → (r.stateAt m).activity = .active) :
    ∃ m, n ≤ m ∧ r.eventAt m = e := by
  apply Classical.byContradiction
  intro hno
  have never : ∀ m, n ≤ m → r.eventAt m ≠ e := fun m hm he => hno ⟨m, hm, he⟩
  have stays : ∀ k, (r.pendingAt (n + k)).head? = some e := by
    intro k
    induction k with
    | zero => exact hp
    | succ k ih => exact pendingFollows_head (hv.pending (n + k)) ih (never _ (Nat.le_add_right n k))
  refine hno (hf.receiver e n fun m hm => ⟨?_, ha m hm⟩)
  obtain ⟨k, rfl⟩ := Nat.exists_eq_add_of_le hm
  exact stays k

end Sys2Proof.Machine
end

