-- ==== Sys2Proof/Laws/State.lean ====
section
/-! SUPPORT. What each named update of the state does to each field of the state, so that no proof unfolds a record update. -/

namespace Sys2Proof.Machine

open Sys2Proof

/-! ## `State.wireWrite` -/

@[simp] theorem State.wireWrite_params (bs : List Byte) (s : State) : (s.wireWrite bs).params = s.params := rfl
@[simp] theorem State.wireWrite_rx (bs : List Byte) (s : State) : (s.wireWrite bs).rx = s.rx := rfl
@[simp] theorem State.wireWrite_ctl (bs : List Byte) (s : State) : (s.wireWrite bs).ctl = s.ctl := rfl
@[simp] theorem State.wireWrite_fatal (bs : List Byte) (s : State) : (s.wireWrite bs).fatal = s.fatal := rfl
@[simp] theorem State.wireWrite_opened (bs : List Byte) (s : State) : (s.wireWrite bs).opened = s.opened := rfl
@[simp] theorem State.wireWrite_waiters (bs : List Byte) (s : State) : (s.wireWrite bs).waiters = s.waiters := rfl
@[simp] theorem State.wireWrite_out (bs : List Byte) (s : State) :
    (s.wireWrite bs).out = { s.out with wireOut := s.out.wireOut ++ bs } := rfl
@[simp] theorem State.wireWrite_env (bs : List Byte) (s : State) : (s.wireWrite bs).env = s.env := rfl

/-! ## `State.emitRx` -/

@[simp] theorem State.emitRx_params (r : ReceivedFrame) (s : State) : (s.emitRx r).params = s.params := rfl
@[simp] theorem State.emitRx_rx (r : ReceivedFrame) (s : State) : (s.emitRx r).rx = s.rx := rfl
@[simp] theorem State.emitRx_ctl (r : ReceivedFrame) (s : State) : (s.emitRx r).ctl = s.ctl := rfl
@[simp] theorem State.emitRx_fatal (r : ReceivedFrame) (s : State) : (s.emitRx r).fatal = s.fatal := rfl
@[simp] theorem State.emitRx_opened (r : ReceivedFrame) (s : State) : (s.emitRx r).opened = s.opened := rfl
@[simp] theorem State.emitRx_waiters (r : ReceivedFrame) (s : State) : (s.emitRx r).waiters = s.waiters := rfl
@[simp] theorem State.emitRx_out (r : ReceivedFrame) (s : State) :
    (s.emitRx r).out = { s.out with rxOut := s.out.rxOut ++ [r] } := rfl
@[simp] theorem State.emitRx_env (r : ReceivedFrame) (s : State) : (s.emitRx r).env = s.env := rfl

/-! ## `State.emitLog` -/

@[simp] theorem State.emitLog_params (a b : CState) (c : LogCause) (s : State) :
    (s.emitLog a b c).params = s.params := rfl
@[simp] theorem State.emitLog_rx (a b : CState) (c : LogCause) (s : State) : (s.emitLog a b c).rx = s.rx := rfl
@[simp] theorem State.emitLog_ctl (a b : CState) (c : LogCause) (s : State) : (s.emitLog a b c).ctl = s.ctl := rfl
@[simp] theorem State.emitLog_fatal (a b : CState) (c : LogCause) (s : State) : (s.emitLog a b c).fatal = s.fatal := rfl
@[simp] theorem State.emitLog_opened (a b : CState) (c : LogCause) (s : State) :
    (s.emitLog a b c).opened = s.opened := rfl
@[simp] theorem State.emitLog_waiters (a b : CState) (c : LogCause) (s : State) :
    (s.emitLog a b c).waiters = s.waiters := rfl
@[simp] theorem State.emitLog_out (a b : CState) (c : LogCause) (s : State) :
    (s.emitLog a b c).out = { s.out with logOut := s.out.logOut ++ [⟨a, b, c⟩] } := rfl
@[simp] theorem State.emitLog_env (a b : CState) (c : LogCause) (s : State) : (s.emitLog a b c).env = s.env := rfl

/-! ## `State.reply` -/

@[simp] theorem State.reply_params (h : Byte) (st : HostStatus) (v : HostValue) (s : State) :
    (s.reply h st v).params = s.params := rfl
@[simp] theorem State.reply_rx (h : Byte) (st : HostStatus) (v : HostValue) (s : State) :
    (s.reply h st v).rx = s.rx := rfl
@[simp] theorem State.reply_ctl (h : Byte) (st : HostStatus) (v : HostValue) (s : State) :
    (s.reply h st v).ctl = s.ctl := rfl
@[simp] theorem State.reply_fatal (h : Byte) (st : HostStatus) (v : HostValue) (s : State) :
    (s.reply h st v).fatal = s.fatal := rfl
@[simp] theorem State.reply_opened (h : Byte) (st : HostStatus) (v : HostValue) (s : State) :
    (s.reply h st v).opened = s.opened := rfl
@[simp] theorem State.reply_waiters (h : Byte) (st : HostStatus) (v : HostValue) (s : State) :
    (s.reply h st v).waiters = s.waiters := rfl
@[simp] theorem State.reply_out (h : Byte) (st : HostStatus) (v : HostValue) (s : State) :
    (s.reply h st v).out = { s.out with replies := s.out.replies ++ [⟨h, st, v⟩] } := rfl
@[simp] theorem State.reply_env (h : Byte) (st : HostStatus) (v : HostValue) (s : State) :
    (s.reply h st v).env = s.env := rfl

/-! ## `State.setCState` -/

@[simp] theorem State.setCState_params (c : CState) (w : LogCause) (s : State) :
    (s.setCState c w).params = s.params := rfl
@[simp] theorem State.setCState_rx (c : CState) (w : LogCause) (s : State) : (s.setCState c w).rx = s.rx := rfl
@[simp] theorem State.setCState_ctl (c : CState) (w : LogCause) (s : State) :
    (s.setCState c w).ctl = { s.ctl with cstate := c } := rfl
@[simp] theorem State.setCState_fatal (c : CState) (w : LogCause) (s : State) : (s.setCState c w).fatal = s.fatal := rfl
@[simp] theorem State.setCState_opened (c : CState) (w : LogCause) (s : State) :
    (s.setCState c w).opened = s.opened := rfl
@[simp] theorem State.setCState_waiters (c : CState) (w : LogCause) (s : State) :
    (s.setCState c w).waiters = s.waiters := rfl
@[simp] theorem State.setCState_out (c : CState) (w : LogCause) (s : State) :
    (s.setCState c w).out = { s.out with logOut := s.out.logOut ++ [⟨s.ctl.cstate, c, w⟩] } := rfl
@[simp] theorem State.setCState_env (c : CState) (w : LogCause) (s : State) : (s.setCState c w).env = s.env := rfl

/-! ## `State.arm` -/

@[simp] theorem State.arm_params (k : TimerKind) (s : State) : (s.arm k).params = s.params := rfl
@[simp] theorem State.arm_rx (k : TimerKind) (s : State) : (s.arm k).rx = s.rx := rfl
@[simp] theorem State.arm_ctl (k : TimerKind) (s : State) : (s.arm k).ctl = { s.ctl with timer := some k } := rfl
@[simp] theorem State.arm_fatal (k : TimerKind) (s : State) : (s.arm k).fatal = s.fatal := rfl
@[simp] theorem State.arm_opened (k : TimerKind) (s : State) : (s.arm k).opened = s.opened := rfl
@[simp] theorem State.arm_waiters (k : TimerKind) (s : State) : (s.arm k).waiters = s.waiters := rfl
@[simp] theorem State.arm_out (k : TimerKind) (s : State) : (s.arm k).out = s.out := rfl
@[simp] theorem State.arm_env (k : TimerKind) (s : State) : (s.arm k).env = s.env := rfl

/-! ## `State.disarm` -/

@[simp] theorem State.disarm_params (s : State) : s.disarm.params = s.params := rfl
@[simp] theorem State.disarm_rx (s : State) : s.disarm.rx = s.rx := rfl
@[simp] theorem State.disarm_ctl (s : State) : s.disarm.ctl = { s.ctl with timer := none } := rfl
@[simp] theorem State.disarm_fatal (s : State) : s.disarm.fatal = s.fatal := rfl
@[simp] theorem State.disarm_opened (s : State) : s.disarm.opened = s.opened := rfl
@[simp] theorem State.disarm_waiters (s : State) : s.disarm.waiters = s.waiters := rfl
@[simp] theorem State.disarm_out (s : State) : s.disarm.out = s.out := rfl
@[simp] theorem State.disarm_env (s : State) : s.disarm.env = s.env := rfl

/-! ## `State.countCommand` -/

@[simp] theorem State.countCommand_params (s : State) : s.countCommand.params = s.params := rfl
@[simp] theorem State.countCommand_rx (s : State) : s.countCommand.rx = s.rx := rfl
@[simp] theorem State.countCommand_ctl (s : State) :
    s.countCommand.ctl = { s.ctl with rxCmdCounter := s.ctl.rxCmdCounter + 1#32 } := rfl
@[simp] theorem State.countCommand_fatal (s : State) : s.countCommand.fatal = s.fatal := rfl
@[simp] theorem State.countCommand_opened (s : State) : s.countCommand.opened = s.opened := rfl
@[simp] theorem State.countCommand_waiters (s : State) : s.countCommand.waiters = fireWaiters .cmd s.waiters := rfl
@[simp] theorem State.countCommand_out (s : State) : s.countCommand.out = s.out := rfl
@[simp] theorem State.countCommand_env (s : State) : s.countCommand.env = s.env := rfl

/-! ## `State.countToken` -/

@[simp] theorem State.countToken_params (s : State) : s.countToken.params = s.params := rfl
@[simp] theorem State.countToken_rx (s : State) : s.countToken.rx = s.rx := rfl
@[simp] theorem State.countToken_ctl (s : State) :
    s.countToken.ctl = { s.ctl with tokenCounter := s.ctl.tokenCounter + 1#32 } := rfl
@[simp] theorem State.countToken_fatal (s : State) : s.countToken.fatal = s.fatal := rfl
@[simp] theorem State.countToken_opened (s : State) : s.countToken.opened = s.opened := rfl
@[simp] theorem State.countToken_waiters (s : State) : s.countToken.waiters = fireWaiters .tok s.waiters := rfl
@[simp] theorem State.countToken_out (s : State) : s.countToken.out = s.out := rfl
@[simp] theorem State.countToken_env (s : State) : s.countToken.env = s.env := rfl

/-! ## `transportError` -/

@[simp] theorem transportError_params (k : TransportErrorKind) (s : State) :
    (transportError k s).params = s.params := rfl
@[simp] theorem transportError_rx (k : TransportErrorKind) (s : State) : (transportError k s).rx = s.rx := rfl
@[simp] theorem transportError_ctl (k : TransportErrorKind) (s : State) :
    (transportError k s).ctl = { s.ctl with lastError := k.code } := rfl
@[simp] theorem transportError_fatal (k : TransportErrorKind) (s : State) : (transportError k s).fatal = true := rfl
@[simp] theorem transportError_opened (k : TransportErrorKind) (s : State) :
    (transportError k s).opened = s.opened := rfl
@[simp] theorem transportError_waiters (k : TransportErrorKind) (s : State) :
    (transportError k s).waiters = s.waiters := rfl
@[simp] theorem transportError_out (k : TransportErrorKind) (s : State) :
    (transportError k s).out = { s.out with logOut := s.out.logOut ++ [⟨s.ctl.cstate, s.ctl.cstate, .fatal k⟩] } := rfl
@[simp] theorem transportError_env (k : TransportErrorKind) (s : State) : (transportError k s).env = s.env := rfl

/-! ## `enterError` -/

@[simp] theorem enterError_params (c : ErrorCause) (s : State) : (enterError c s).params = s.params := rfl
@[simp] theorem enterError_rx (c : ErrorCause) (s : State) : (enterError c s).rx = s.rx := rfl
@[simp] theorem enterError_ctl (c : ErrorCause) (s : State) :
    (enterError c s).ctl = { clearRole s.ctl with
      cstate := .error, lastError := c.code, errRetries := s.ctl.errRetries + 1#32, timer := none
      persistFail := s.ctl.persistFail || decide ((s.ctl.errRetries + 1#32).toNat > s.params.nRetry) } := rfl
@[simp] theorem enterError_fatal (c : ErrorCause) (s : State) : (enterError c s).fatal = s.fatal := rfl
@[simp] theorem enterError_opened (c : ErrorCause) (s : State) : (enterError c s).opened = s.opened := rfl
@[simp] theorem enterError_waiters (c : ErrorCause) (s : State) : (enterError c s).waiters = s.waiters := rfl
@[simp] theorem enterError_out (c : ErrorCause) (s : State) :
    (enterError c s).out = { s.out with logOut := s.out.logOut ++ [⟨s.ctl.cstate, .error, .stateError c⟩] } := rfl
@[simp] theorem enterError_env (c : ErrorCause) (s : State) : (enterError c s).env = s.env := rfl

/-! ## `enterSensing` -/

@[simp] theorem enterSensing_params (w : LogCause) (s : State) : (enterSensing w s).params = s.params := rfl
@[simp] theorem enterSensing_rx (w : LogCause) (s : State) : (enterSensing w s).rx = s.rx := rfl
@[simp] theorem enterSensing_ctl (w : LogCause) (s : State) :
    (enterSensing w s).ctl = { clearRole s.ctl with cstate := .sensing, timer := some .sense } := rfl
@[simp] theorem enterSensing_fatal (w : LogCause) (s : State) : (enterSensing w s).fatal = s.fatal := rfl
@[simp] theorem enterSensing_opened (w : LogCause) (s : State) : (enterSensing w s).opened = s.opened := rfl
@[simp] theorem enterSensing_waiters (w : LogCause) (s : State) : (enterSensing w s).waiters = s.waiters := rfl
@[simp] theorem enterSensing_out (w : LogCause) (s : State) :
    (enterSensing w s).out = { s.out with logOut := s.out.logOut ++ [⟨s.ctl.cstate, .sensing, w⟩] } := rfl
@[simp] theorem enterSensing_env (w : LogCause) (s : State) : (enterSensing w s).env = s.env := rfl

/-! ## `dropToken` -/

@[simp] theorem dropToken_params (s : State) : (dropToken s).params = s.params := rfl
@[simp] theorem dropToken_rx (s : State) : (dropToken s).rx = s.rx := rfl
@[simp] theorem dropToken_ctl (s : State) : (dropToken s).ctl = { s.ctl with holdsToken := false } := rfl
@[simp] theorem dropToken_fatal (s : State) : (dropToken s).fatal = s.fatal := rfl
@[simp] theorem dropToken_opened (s : State) : (dropToken s).opened = s.opened := rfl
@[simp] theorem dropToken_waiters (s : State) : (dropToken s).waiters = s.waiters := rfl
@[simp] theorem dropToken_out (s : State) : (dropToken s).out = s.out := rfl
@[simp] theorem dropToken_env (s : State) : (dropToken s).env = s.env := rfl

/-! ## `takeToken` -/

@[simp] theorem takeToken_params (s : State) : (takeToken s).params = s.params := rfl
@[simp] theorem takeToken_rx (s : State) : (takeToken s).rx = s.rx := rfl
@[simp] theorem takeToken_ctl (s : State) :
    (takeToken s).ctl = { s.ctl with
      tokenCounter := s.ctl.tokenCounter + 1#32, holdsToken := true, toCount := 0#32, timer := none } := rfl
@[simp] theorem takeToken_fatal (s : State) : (takeToken s).fatal = s.fatal := rfl
@[simp] theorem takeToken_opened (s : State) : (takeToken s).opened = s.opened := rfl
@[simp] theorem takeToken_waiters (s : State) : (takeToken s).waiters = fireWaiters .tok s.waiters := rfl
@[simp] theorem takeToken_out (s : State) : (takeToken s).out = s.out := rfl
@[simp] theorem takeToken_env (s : State) : (takeToken s).env = s.env := rfl

/-! ## `takeTokenAsMaster` -/

@[simp] theorem takeTokenAsMaster_params (s : State) : (takeTokenAsMaster s).params = s.params := rfl
@[simp] theorem takeTokenAsMaster_rx (s : State) : (takeTokenAsMaster s).rx = s.rx := rfl
@[simp] theorem takeTokenAsMaster_ctl (s : State) :
    (takeTokenAsMaster s).ctl = { s.ctl with
      tokenCounter := s.ctl.tokenCounter + 1#32, holdsToken := true, toCount := 0#32, timer := none
      mphase := .mDrain } := rfl
@[simp] theorem takeTokenAsMaster_fatal (s : State) : (takeTokenAsMaster s).fatal = s.fatal := rfl
@[simp] theorem takeTokenAsMaster_opened (s : State) : (takeTokenAsMaster s).opened = s.opened := rfl
@[simp] theorem takeTokenAsMaster_waiters (s : State) :
    (takeTokenAsMaster s).waiters = fireWaiters .tok s.waiters := rfl
@[simp] theorem takeTokenAsMaster_out (s : State) : (takeTokenAsMaster s).out = s.out := rfl
@[simp] theorem takeTokenAsMaster_env (s : State) : (takeTokenAsMaster s).env = s.env := rfl

/-! ## `selfElect` -/

@[simp] theorem selfElect_params (s : State) : (selfElect s).params = s.params := rfl
@[simp] theorem selfElect_rx (s : State) : (selfElect s).rx = s.rx := rfl
@[simp] theorem selfElect_ctl (s : State) :
    (selfElect s).ctl = { s.ctl with
      cstate := .master, tokenCounter := s.ctl.tokenCounter + 1#32, ownId := some s.params.masterStationId
      successor := some s.params.masterStationId, known := 0#64, holdsToken := true, mphase := .mDrain
      errRetries := 0#32, toCount := 0#32, timer := none } := rfl
@[simp] theorem selfElect_fatal (s : State) : (selfElect s).fatal = s.fatal := rfl
@[simp] theorem selfElect_opened (s : State) : (selfElect s).opened = s.opened := rfl
@[simp] theorem selfElect_waiters (s : State) : (selfElect s).waiters = fireWaiters .tok s.waiters := rfl
@[simp] theorem selfElect_out (s : State) :
    (selfElect s).out = { s.out with logOut := s.out.logOut ++ [⟨s.ctl.cstate, .master, .r186⟩] } := rfl
@[simp] theorem selfElect_env (s : State) : (selfElect s).env = s.env := rfl

/-! ## `State.sent` -/

@[simp] theorem State.sent_params (bs : List Byte) (s : State) : (s.sent bs).params = s.params := rfl
@[simp] theorem State.sent_rx (bs : List Byte) (s : State) : (s.sent bs).rx = s.rx := rfl
@[simp] theorem State.sent_ctl (bs : List Byte) (s : State) : (s.sent bs).ctl = s.ctl := rfl
@[simp] theorem State.sent_fatal (bs : List Byte) (s : State) : (s.sent bs).fatal = s.fatal := rfl
@[simp] theorem State.sent_opened (bs : List Byte) (s : State) : (s.sent bs).opened = s.opened := rfl
@[simp] theorem State.sent_waiters (bs : List Byte) (s : State) : (s.sent bs).waiters = s.waiters := rfl
@[simp] theorem State.sent_out (bs : List Byte) (s : State) :
    (s.sent bs).out = { s.out with wireOut := s.out.wireOut ++ bs } := rfl
@[simp] theorem State.sent_env (bs : List Byte) (s : State) :
    (s.sent bs).env = { s.env with writeRoom := s.env.writeRoom.map (· - bs.length) } := rfl

/-! ## The role state that Error entry and Sensing entry clear -/

@[simp] theorem clearRole_ownId (c : Controller) : (clearRole c).ownId = none := rfl
@[simp] theorem clearRole_successor (c : Controller) : (clearRole c).successor = none := rfl
@[simp] theorem clearRole_peer (c : Controller) : (clearRole c).peer = none := rfl
@[simp] theorem clearRole_known (c : Controller) : (clearRole c).known = 0#64 := rfl
@[simp] theorem clearRole_holdsToken (c : Controller) : (clearRole c).holdsToken = false := rfl
@[simp] theorem clearRole_mphase (c : Controller) : (clearRole c).mphase = .mIdle := rfl
@[simp] theorem clearRole_pending (c : Controller) : (clearRole c).pending = none := rfl
@[simp] theorem clearRole_pendingPred (c : Controller) : (clearRole c).pendingPred = none := rfl
@[simp] theorem clearRole_toCount (c : Controller) : (clearRole c).toCount = 0#32 := rfl
@[simp] theorem clearRole_ckCount (c : Controller) : (clearRole c).ckCount = 0#32 := rfl
@[simp] theorem clearRole_cstate (c : Controller) : (clearRole c).cstate = c.cstate := rfl
@[simp] theorem clearRole_timer (c : Controller) : (clearRole c).timer = c.timer := rfl
@[simp] theorem clearRole_errRetries (c : Controller) : (clearRole c).errRetries = c.errRetries := rfl
@[simp] theorem clearRole_persistFail (c : Controller) : (clearRole c).persistFail = c.persistFail := rfl
@[simp] theorem clearRole_lastError (c : Controller) : (clearRole c).lastError = c.lastError := rfl
@[simp] theorem clearRole_tokenCounter (c : Controller) : (clearRole c).tokenCounter = c.tokenCounter := rfl
@[simp] theorem clearRole_rxCmdCounter (c : Controller) : (clearRole c).rxCmdCounter = c.rxCmdCounter := rfl
@[simp] theorem clearRole_txq (c : Controller) : (clearRole c).txq = c.txq := rfl

/-! ## Recording a frame (R179) -/

@[simp] theorem recordFrame_params (f : Frame) (s : State) :
    (recordFrame f s).params = s.params := by
  cases f <;> rfl
@[simp] theorem recordFrame_rx (f : Frame) (s : State) :
    (recordFrame f s).rx = s.rx := by
  cases f <;> rfl
@[simp] theorem recordFrame_ctl (f : Frame) (s : State) :
    (recordFrame f s).ctl = { s.ctl with
      ckCount := 0#32
      rxCmdCounter := if isCommand f then s.ctl.rxCmdCounter + 1#32 else s.ctl.rxCmdCounter } := by
  cases f <;> rfl
@[simp] theorem recordFrame_fatal (f : Frame) (s : State) :
    (recordFrame f s).fatal = s.fatal := by
  cases f <;> rfl
@[simp] theorem recordFrame_opened (f : Frame) (s : State) :
    (recordFrame f s).opened = s.opened := by
  cases f <;> rfl
@[simp] theorem recordFrame_waiters (f : Frame) (s : State) :
    (recordFrame f s).waiters = if isCommand f then fireWaiters .cmd s.waiters else s.waiters := by
  cases f <;> rfl
@[simp] theorem recordFrame_out (f : Frame) (s : State) :
    (recordFrame f s).out = { s.out with rxOut := s.out.rxOut ++ [⟨f, s.ctl.tokenCounter⟩] } := by
  cases f <;> rfl
@[simp] theorem recordFrame_env (f : Frame) (s : State) :
    (recordFrame f s).env = s.env := by
  cases f <;> rfl

/-! ## Equal states, and the wire id (R33) -/

/-- Two states with equal fields are equal. -/
theorem State.eq_of_fields {a b : State} (hp : a.params = b.params) (hr : a.rx = b.rx) (hc : a.ctl = b.ctl)
    (hf : a.fatal = b.fatal) (ho : a.opened = b.opened) (hw : a.waiters = b.waiters) (hu : a.out = b.out)
    (he : a.env = b.env) : a = b := by
  cases a; cases b; cases hp; cases hr; cases hc; cases hf; cases ho; cases hw; cases hu; cases he; rfl

/-- The wire id depends on the parameters and `OWN_ID` alone. -/
theorem State.wireId_congr {a b : State} (hp : a.params = b.params) (ho : a.ctl.ownId = b.ctl.ownId) :
    a.wireId = b.wireId := by
  simp [State.wireId, hp, ho]

/-- With an id, the wire id is that id. -/
theorem State.wireId_own (s : State) (me : StationId) (h : s.ctl.ownId = some me) : s.wireId = me := by
  simp [State.wireId, h]

@[simp] theorem recordFrame_wireId (f : Frame) (s : State) : (recordFrame f s).wireId = s.wireId :=
  State.wireId_congr (by simp) (by simp)

@[simp] theorem State.sent_wireId (bs : List Byte) (s : State) : (s.sent bs).wireId = s.wireId :=
  State.wireId_congr (by simp) (by simp)

/-- What the transport accepts depends on its room alone. -/
theorem State.canSend_congr {a b : State} (h : a.env.writeRoom = b.env.writeRoom) (bs : List Byte) :
    a.canSend bs ↔ b.canSend bs := by
  simp [State.canSend, h]

/-! ## The flow of a step (R302) -/

@[simp] theorem Flow.bind_go (s : State) (k : State → Flow) : (Flow.go s).bind k = k s := rfl
@[simp] theorem Flow.bind_ended (s : State) (k : State → Flow) : (Flow.ended s).bind k = .ended s := rfl
@[simp] theorem Flow.bind_fault (r : Fault) (k : State → Flow) : (Flow.fault r).bind k = .fault r := rfl
@[simp] theorem Flow.outcome_go (s : State) : (Flow.go s).outcome = .next s := rfl
@[simp] theorem Flow.outcome_ended (s : State) : (Flow.ended s).outcome = .next s := rfl
@[simp] theorem Flow.outcome_fault (r : Fault) : (Flow.fault r).outcome = .fault r := rfl

end Sys2Proof.Machine
end

