-- ==== Sys2Proof/Laws/Ops.lean ====
section
/-! SUPPORT. What each shared operation can do, said once: the proofs about the instructions cite these and do not unfold the
operations. -/

namespace Sys2Proof.Machine

open Sys2Proof

/-! ## Transmitting (R173, R174) -/

/-- A write that fails leaves the accepted bytes on `WIRE_OUT`, no room, and a stopped block. -/
def State.cutOff (room : Nat) (w : List Byte) (s : State) : State :=
  transportError .write { s with
    out := { s.out with wireOut := s.out.wireOut ++ w.take room }
    env := { s.env with writeRoom := some 0 } }

theorem transmit_of_canSend (layout : List Byte) (s : State) (h : s.canSend (wireImage s.params layout)) :
    transmit layout s = .go (s.sent (wireImage s.params layout)) := by
  unfold transmit
  split
  · next hr => rcases s with ⟨_, _, _, _, _, _, _, ⟨_, _, _, _⟩⟩; cases hr; rfl
  · next room hr => rw [if_pos (h room hr)]; simp [State.sent, State.wireWrite, hr]

/-- Everything a transmission can do. -/
theorem transmit_cases (layout : List Byte) (s : State) :
    (s.canSend (wireImage s.params layout) ∧ transmit layout s = .go (s.sent (wireImage s.params layout))) ∨
    ∃ room, s.env.writeRoom = some room ∧ room < (wireImage s.params layout).length ∧
      transmit layout s = .ended (s.cutOff room (wireImage s.params layout)) := by
  by_cases h : s.canSend (wireImage s.params layout)
  · exact .inl ⟨h, transmit_of_canSend layout s h⟩
  · simp only [State.canSend, not_forall, not_le] at h
    obtain ⟨room, hr, hlt⟩ := h
    refine .inr ⟨room, hr, hlt, ?_⟩
    simp [transmit, hr, Nat.not_le.2 hlt, State.cutOff, State.wireWrite]

theorem send_of_canSend (cmd : BitVec 4) (dest : StationId) (bc : Bool) (d : List Byte) (s : State)
    (h : s.canSend (commandOnWire s.params s.wireId cmd dest bc d)) :
    send cmd dest bc d s = .go (s.sent (commandOnWire s.params s.wireId cmd dest bc d)) :=
  transmit_of_canSend _ s h

theorem sendToken_of_canSend (dest : StationId) (s : State) (h : s.canSend (tokenOnWire s.params s.wireId dest)) :
    sendToken dest s = .go (s.sent (tokenOnWire s.params s.wireId dest)) :=
  transmit_of_canSend _ s h

/-- `SEND`, with the parameters and the wire id named. -/
theorem send_from {p : Params} {me : StationId} (cmd : BitVec 4) (dest : StationId) (bc : Bool) (d : List Byte)
    (s : State) (hp : s.params = p) (hw : s.wireId = me) (h : s.canSend (commandOnWire p me cmd dest bc d)) :
    send cmd dest bc d s = .go (s.sent (commandOnWire p me cmd dest bc d)) := by
  subst hp hw
  exact send_of_canSend cmd dest bc d s h

/-- Everything `SEND` can do. -/
theorem send_cases (cmd : BitVec 4) (dest : StationId) (bc : Bool) (d : List Byte) (s : State) :
    send cmd dest bc d s = .go (s.sent (commandOnWire s.params s.wireId cmd dest bc d)) ∨
    ∃ room, s.env.writeRoom = some room ∧ room < (commandOnWire s.params s.wireId cmd dest bc d).length ∧
      send cmd dest bc d s = .ended (s.cutOff room (commandOnWire s.params s.wireId cmd dest bc d)) := by
  rcases transmit_cases (commandLayout s.params (ownFrame cmd dest bc d s)) s with ⟨_, h⟩ | h
  · exact .inl h
  · exact .inr h

/-- Everything `SEND_TOKEN` can do. -/
theorem sendToken_cases (dest : StationId) (s : State) :
    sendToken dest s = .go (s.sent (tokenOnWire s.params s.wireId dest)) ∨
    ∃ room, s.env.writeRoom = some room ∧ room < (tokenOnWire s.params s.wireId dest).length ∧
      sendToken dest s = .ended (s.cutOff room (tokenOnWire s.params s.wireId dest)) := by
  rcases transmit_cases (headerLayout s.params ⟨dest, false, s.wireId, 0#2⟩ false) s with ⟨_, h⟩ | h
  · exact .inl h
  · exact .inr h

theorem State.canSend_append (a b : List Byte) (s : State) :
    s.canSend (a ++ b) ↔ s.canSend a ∧ (s.sent a).canSend b := by
  cases hr : s.env.writeRoom with
  | none => simp [State.canSend, hr]
  | some room => simp [State.canSend, hr]; omega

theorem State.sent_sent (a b : List Byte) (s : State) : (s.sent a).sent b = s.sent (a ++ b) := by
  rcases s with ⟨_, _, _, _, _, _, _, ⟨_, _, room, _⟩⟩
  cases room <;> simp [State.sent, Nat.sub_sub]

theorem State.sent_nil (s : State) : s.sent [] = s := by
  rcases s with ⟨_, _, _, _, _, _, _, ⟨_, _, room, _⟩⟩
  cases room <;> simp [State.sent]

/-! ## Timeouts (R178) -/

/-- Everything `PROTOCOL_TIMEOUT` can do. -/
theorem protocolTimeout_eq (s : State) (k : State → Flow) :
    protocolTimeout s k =
      if s.params.nTimeout ≤ (s.ctl.toCount + 1#32).toNat then
        .ended (enterError .repeatedTimeouts { s with ctl := { s.ctl with toCount := s.ctl.toCount + 1#32 } })
      else k { s with ctl := { s.ctl with toCount := s.ctl.toCount + 1#32 } } := rfl

/-! ## The token (R188, R192) -/

/-- The state a token pass leaves behind it, before the token frame's bytes. -/
def State.passed (s : State) : State :=
  { s with ctl :=
    if s.ctl.cstate = .master then
      { s.ctl with holdsToken := false, timer := some .token, mphase := .mIdle, pending := none, pendingPred := none }
    else { s.ctl with holdsToken := false, timer := some .token } }

theorem passToken_alone (s : State) (h : s.ctl.successor = s.ctl.ownId) :
    passToken s = .go (takeTokenAsMaster (dropToken s)) := by
  simp [passToken, h]

/-- Everything a token pass can do: the lone retake, the pass, a failing write, or the fault of log entry 16. -/
theorem passToken_cases (s : State) :
    (s.ctl.successor = s.ctl.ownId ∧
      passToken s = .go (takeTokenAsMaster (dropToken s))) ∨
    (s.ctl.successor ≠ s.ctl.ownId ∧ s.ctl.successor = none ∧ passToken s = .fault .missingRingId) ∨
    (s.ctl.successor ≠ s.ctl.ownId ∧ ∃ succ, s.ctl.successor = some succ ∧
      passToken s = .go (s.passed.sent (tokenOnWire s.params s.wireId succ))) ∨
    (s.ctl.successor ≠ s.ctl.ownId ∧ ∃ succ room, s.ctl.successor = some succ ∧
      s.env.writeRoom = some room ∧ room < (tokenOnWire s.params s.wireId succ).length ∧
      passToken s = .ended ((dropToken s).cutOff room
        (tokenOnWire s.params s.wireId succ))) := by
  by_cases h : s.ctl.successor = s.ctl.ownId
  · exact .inl ⟨h, passToken_alone s h⟩
  · right
    unfold passToken
    simp only [dropToken_ctl, if_neg h]
    cases hs : s.ctl.successor with
    | none => exact .inl ⟨hs ▸ h, rfl, rfl⟩
    | some succ =>
      rcases sendToken_cases succ (dropToken s) with
        hg | ⟨room, hr, hl, hg⟩
      · refine .inr (.inl ⟨hs ▸ h, succ, rfl, ?_⟩)
        simp only [hg, Flow.bind_go]
        by_cases hm : s.ctl.cstate = .master <;>
          simp [State.sent, State.arm, State.passed, hm, State.wireId, dropToken]
      · exact .inr (.inr ⟨hs ▸ h, succ, room, rfl, hr, hl, by simp only [hg]; rfl⟩)

theorem passToken_on (s : State) (me succ : StationId) (ho : s.ctl.ownId = some me)
    (hs : s.ctl.successor = some succ) (hne : succ ≠ me) (hc : s.canSend (tokenOnWire s.params me succ)) :
    passToken s = .go (s.passed.sent (tokenOnWire s.params me succ)) := by
  have hw : s.wireId = me := by simp [State.wireId, ho]
  rcases passToken_cases s with ⟨h, _⟩ | ⟨_, h, _⟩ | ⟨_, x, h, hp⟩ | ⟨_, x, room, h, hr, hl, _⟩
  · simp_all
  · simp_all
  · simp_all
  · have := hc room hr
    simp_all
    omega

/-! ## The tenure's drain (R187) -/

/-- How many frames a budget lets go. -/
def drained (budget : Option Nat) (queued : Nat) : Nat :=
  match budget with
  | none => queued
  | some n => min n queued

theorem drained_maxTxPerToken (p : Params) (queued : Nat) : drained p.maxTxPerToken queued = tenureCount p queued := rfl

theorem drained_cons (b : Option Nat) (hb : b ≠ some 0) (queued : Nat) :
    drained b (queued + 1) = drained (b.map (· - 1)) queued + 1 := by
  cases b with
  | none => rfl
  | some n =>
    have : n ≠ 0 := fun h => hb (by rw [h])
    simp only [drained, Option.map_some]
    omega

theorem setTxq_self (s : State) (q : List CommandFrame) (hq : s.ctl.txq = q) :
    { s with ctl := { s.ctl with txq := q } } = s := by
  subst hq; rfl

/-- A drain whose bytes the transport accepts sends the queue's oldest frames, and leaves the rest. -/
theorem drainQueue_of_canSend (me : StationId) (q : List CommandFrame) (b : Option Nat) (s : State)
    (hq : s.ctl.txq = q)
    (hc : s.canSend ((q.take (drained b q.length)).flatMap (queuedOnWire s.params me))) :
    drainQueue (some me) q b s =
      .go (({ s with ctl := { s.ctl with txq := q.drop (drained b q.length) } } : State).sent
        ((q.take (drained b q.length)).flatMap (queuedOnWire s.params me))) := by
  induction q generalizing b s with
  | nil => simp [drainQueue, State.sent_nil, setTxq_self s [] hq]
  | cons f rest ih =>
    by_cases hb : b = some 0
    · simp [drainQueue, hb, drained, State.sent_nil, setTxq_self s _ hq]
    · rw [List.length_cons, drained_cons b hb, List.take_succ_cons, List.flatMap_cons] at hc
      rw [List.length_cons, drained_cons b hb, List.take_succ_cons, List.flatMap_cons, List.drop_succ_cons]
      rw [State.canSend_append] at hc
      simp only [drainQueue, if_neg hb]
      have h1 := transmit_of_canSend (commandLayout s.params { f with hdr := { f.hdr with src := me } })
        { s with ctl := { s.ctl with txq := rest } } hc.1
      refine (congrArg (fun m => Flow.bind m _) h1).trans ?_
      refine (ih (b.map (· - 1)) _ rfl ?_).trans ?_
      · exact hc.2
      rw [← State.sent_sent]
      rfl

/-- A property of the state that sending, a shorter queue and a failing write keep is kept by the whole drain. -/
theorem drainQueue_keeps (P : State → Prop)
    (hsent : ∀ (s : State) (bs : List Byte), P s → P (s.sent bs))
    (hcut : ∀ (s : State) (room : Nat) (bs : List Byte), P s → P (s.cutOff room bs))
    (hpop : ∀ (s : State) (f : CommandFrame) (rest : List CommandFrame), s.ctl.txq = f :: rest → P s →
      P { s with ctl := { s.ctl with txq := rest } })
    (me : StationId) (q : List CommandFrame) (b : Option Nat) (s : State) (hq : s.ctl.txq = q) (hs : P s) :
    (∃ t, drainQueue (some me) q b s = .go t ∧ P t) ∨ (∃ t, drainQueue (some me) q b s = .ended t ∧ P t) := by
  induction q generalizing b s with
  | nil => exact .inl ⟨s, rfl, hs⟩
  | cons f rest ih =>
    by_cases hb : b = some 0
    · exact .inl ⟨s, by simp [drainQueue, hb], hs⟩
    · have hp := hpop s f rest hq hs
      simp only [drainQueue, if_neg hb]
      rcases transmit_cases (commandLayout s.params { f with hdr := { f.hdr with src := me } })
          { s with ctl := { s.ctl with txq := rest } } with ⟨_, h⟩ | ⟨room, _, _, h⟩
      · rw [h, Flow.bind_go]
        exact ih _ _ rfl (hsent _ _ hp)
      · rw [h, Flow.bind_ended]
        exact .inr ⟨_, rfl, hcut _ _ _ hp⟩

/-! ## A frame from the receiver (R179) -/

/-- The controller rule of an instruction that is a frame's receipt: the rule of the frame's kind. -/
def kindRule : Frame → State → Flow
  | .headerOnly h => tokenRule h
  | .command f =>
    match f.cmd.toNat with
    | 1 => solicitRule f.hdr
    | 3 => getAddressRule f.hdr
    | 4 => addressOfferedRule f.hdr
    | 5 => setAddressRule f.hdr f.payload
    | 6 => addressSetRule f.hdr
    | 7 => setSuccessorRule f.hdr f.payload
    | 8 => successorSetRule f.hdr
    | _ => noEffectRule

/-- The meaning of every frame kind is R179 with the rule of its kind. -/
theorem exec_of_frame (i : Instr) (f : Frame) (s : State) (h : i.frame? = some f) :
    exec i s = deliver f (kindRule f) s := by
  cases i <;> cases h <;> rfl

theorem activity_of_running (s : State) (h : s.running) (hi : s.ctl.cstate ≠ .initial)
    (hb : s.ctl.cstate ≠ .broadcastingStationId) : s.activity = .active := by
  cases hc : s.ctl.cstate <;> simp_all [State.activity, State.running]

theorem deliver_of_running (f : Frame) (k : State → Flow) (s : State) (h : s.running) (hi : s.ctl.cstate ≠ .initial)
    (hb : s.ctl.cstate ≠ .broadcastingStationId) :
    deliver f k s = (dispatchFrame f k (recordFrame f s)).outcome := by
  simp [deliver, activity_of_running s h hi hb]

/-- Everything the delivery of a frame can do. -/
theorem deliver_cases (f : Frame) (k : State → Flow) (s : State) :
    (s.activity = .inactive ∧ deliver f k s = .next s) ∨
    (s.activity = .unreachable ∧ deliver f k s = .fault .unreachableState) ∨
    (s.activity = .active ∧ deliver f k s = (dispatchFrame f k (recordFrame f s)).outcome) := by
  cases h : s.activity <;> simp [deliver, h]

/-- Everything the dispatch of a recorded frame can do. -/
theorem dispatchFrame_cases (f : Frame) (k : State → Flow) (s : State) :
    (s.ctl.cstate = .error ∧ dispatchFrame f k s = .go s) ∨
    (s.ctl.cstate = .sensing ∧ dispatchFrame f k s = sensingTraffic f s) ∨
    (s.ctl.cstate ≠ .error ∧ s.ctl.cstate ≠ .sensing ∧ duplicate f.hdr s = true ∧
      dispatchFrame f k s = .ended (enterError .duplicateStation s)) ∨
    (s.ctl.cstate ≠ .error ∧ s.ctl.cstate ≠ .sensing ∧ duplicate f.hdr s = false ∧ dispatchFrame f k s = k s) := by
  cases h : s.ctl.cstate <;> cases hd : duplicate f.hdr s <;> simp [dispatchFrame, h, hd]

theorem duplicate_eq_false (h : Header) (s : State) (hs : s.ctl.ownId ≠ some h.src) : duplicate h s = false := by
  simp [duplicate, fromStation, hs]

/-- A frame from another station, in a state past Sensing and not in Error, reaches the rule of its kind. -/
theorem exec_frame_rule (i : Instr) (f : Frame) (s : State) (hf : i.frame? = some f) (h : s.running)
    (hi : s.ctl.cstate ≠ .initial) (hb : s.ctl.cstate ≠ .broadcastingStationId) (hs : s.ctl.cstate ≠ .sensing)
    (he : s.ctl.cstate ≠ .error) (hd : s.ctl.ownId ≠ some f.hdr.src) :
    exec i s = (kindRule f (recordFrame f s)).outcome := by
  rw [exec_of_frame i f s hf, deliver_of_running _ _ _ h hi hb]
  rcases dispatchFrame_cases f (kindRule f) (recordFrame f s) with ⟨hc, _⟩ | ⟨hc, _⟩ | ⟨_, _, hc, _⟩ | ⟨_, _, _, hc⟩
  · exact absurd hc (by simpa using he)
  · exact absurd hc (by simpa using hs)
  · rw [duplicate_eq_false _ _ (by simpa using hd)] at hc; cases hc
  · rw [hc]

/-- A frame from another station is only recorded where the rule of its kind does nothing (R182), and in Error (R303). -/
theorem exec_frame_ignored (i : Instr) (f : Frame) (s : State) (hf : i.frame? = some f) (h : s.running)
    (hi : s.ctl.cstate ≠ .initial) (hb : s.ctl.cstate ≠ .broadcastingStationId) (hs : s.ctl.cstate ≠ .sensing)
    (hd : s.ctl.ownId ≠ some f.hdr.src) (hk : kindRule f (recordFrame f s) = .go (recordFrame f s)) :
    exec i s = .next (recordFrame f s) := by
  by_cases he : s.ctl.cstate = .error
  · rw [exec_of_frame i f s hf, deliver_of_running _ _ _ h hi hb]
    simp [dispatchFrame, he, Flow.outcome]
  · rw [exec_frame_rule i f s hf h hi hb hs he hd, hk, Flow.outcome]

/-- The id that a payload's first byte names (R101). -/
theorem stationOperand_eq_some (d : List Byte) (n : StationId) :
    stationOperand d = some n ↔ ∃ rest, d = n.setWidth 8 :: rest := by
  cases d with
  | nil => simp [stationOperand]
  | cons b rest =>
    have hn : n.toNat < 64 := n.isLt
    simp only [stationOperand]
    split
    · rename_i hb
      constructor
      · intro h
        cases h
        exact ⟨rest, congrArg (· :: rest) (BitVec.eq_of_toNat_eq (by simp; omega))⟩
      · rintro ⟨r, h⟩
        cases h
        exact congrArg some (BitVec.eq_of_toNat_eq (by simp))
    · rename_i hb
      refine ⟨fun h => (by cases h), ?_⟩
      rintro ⟨r, h⟩
      cases h
      exact absurd (by simp; omega) hb

/-! ## Waiters (R51) -/

theorem fireWaiters_eq (k : WaiterKind) (ws : List Waiter) : fireWaiters k ws = released k ws := by
  apply List.map_congr_left
  intro w _
  rcases w with ⟨kind, fired⟩
  by_cases h : kind = k <;> cases fired <;> simp [h]

/-! ## Controller steps (R170) -/

/-- Everything a controller step of its own can do. -/
theorem controllerStep_cases (enabled : State → Bool) (k : State → Flow) (s : State) :
    (s.fatal = true ∧ controllerStep enabled k s = .next s) ∨
    (s.fatal = false ∧ s.ctl.cstate = .broadcastingStationId ∧
      controllerStep enabled k s = .fault .unreachableState) ∨
    (s.fatal = false ∧ s.ctl.cstate ≠ .broadcastingStationId ∧ enabled s = false ∧
      controllerStep enabled k s = .next s) ∨
    (s.fatal = false ∧ s.ctl.cstate ≠ .broadcastingStationId ∧ enabled s = true ∧
      controllerStep enabled k s = (k s).outcome) := by
  cases hf : s.fatal <;> by_cases hb : s.ctl.cstate = .broadcastingStationId <;> cases he : enabled s <;>
    simp [controllerStep, hf, hb, he]

/-! ## The step (R170, R275) -/

theorem step_idle (s : State) (h : s.env.schedule = []) : step s = .next s := by
  simp [step, takeEvent, h]

/-- A step takes the first event of the schedule. -/
theorem step_event (s : State) (e : Event) (rest : List Event) (h : s.env.schedule = e :: rest) :
    step s = handle e { s with env := { s.env with schedule := rest } } := by
  simp [step, takeEvent, h]

end Sys2Proof.Machine
end

