-- ==== Sys2Proof/Laws/PerInstr.lean ====
section
/-! SUPPORT. For every instruction one lemma: the word it encodes to matches its own row of the opcode table, whatever its
operands (spec/30_encoding.md R105, spec/44_host_interface.md R276). -/

namespace Sys2Proof.Laws

/-- The word of a well-formed instruction has its row's match under its row's mask. -/
def TableRow.Statement (i : Instr) : Prop :=
  ∀ p : Params, i.wellFormed = true → (encode p i).tableWord &&& i.row.mask = i.row.matchBits

/-- Bit 0 of `B1` is the type bit (R82). -/
theorem TableRow.typeBit (dest : StationId) (bc type : Bool) :
    (headerByte1 dest bc type).toNat.testBit 0 = type := by
  show (headerByte1 dest bc type).getLsbD 0 = type
  cases type <;> cases bc <;> simp [headerByte1, bitByte]

/-- `W16` of a header-only frame has bit 8 clear (R105). -/
theorem TableRow.headerWord (h : Header) :
    (((headerByte1 h.dest h.bc false).toNat <<< 8) ||| (headerByte2 h.src h.ctr).toNat) &&& 0x0100 = 0 := by
  have h0 := typeBit h.dest h.bc false
  generalize headerByte1 h.dest h.bc false = b1 at h0 ⊢
  generalize headerByte2 h.src h.ctr = b2
  rw [show (0x0100 : Nat) = 2 ^ 8 from rfl, Nat.and_two_pow]
  simp [Nat.testBit_or, Nat.testBit_shiftLeft, h0, Nat.testBit_lt_two_pow b2.isLt]

/-- `W24` of a command frame has bit 16 set and the code in bits 7..4 (R105), on 24-bit words. -/
theorem TableRow.commandBits (b1 b2 : Byte) (c len : BitVec 4) (h : b1.getLsbD 0 = true) :
    ((b1.setWidth 24 <<< 16) ||| (b2.setWidth 24 <<< 8) ||| (commandByte c len).setWidth 24) &&& 0x0100F0#24 =
      0x010000#24 ||| (c.setWidth 24 <<< 4) := by
  ext i hi
  rcases i with _|_|_|_|_|_|_|_|_|_|_|_|_|_|_|_|_|_|_|_|_|_|_|_|i <;> simp_all [commandByte]
  all_goals omega

/-- The same of the word as a number. -/
theorem TableRow.commandWord (h : Header) (c len : BitVec 4) :
    (((headerByte1 h.dest h.bc true).toNat <<< 16) ||| ((headerByte2 h.src h.ctr).toNat <<< 8) |||
      (commandByte c len).toNat) &&& 0x0100F0 = 0x010000 ||| (c.toNat <<< 4) := by
  have h0 := typeBit h.dest h.bc true
  generalize headerByte1 h.dest h.bc true = b1 at h0 ⊢
  generalize headerByte2 h.src h.ctr = b2
  have key := congrArg BitVec.toNat (commandBits b1 b2 c len h0)
  generalize commandByte c len = b3 at key ⊢
  have e1 := b1.isLt
  have e2 := b2.isLt
  have e3 := b3.isLt
  have e4 := c.isLt
  simp only [BitVec.toNat_and, BitVec.toNat_or, BitVec.toNat_shiftLeft, BitVec.toNat_setWidth, BitVec.toNat_ofNat,
    Nat.shiftLeft_eq] at key ⊢
  rw [Nat.mod_eq_of_lt (show b1.toNat < 2 ^ 24 by omega), Nat.mod_eq_of_lt (show b2.toNat < 2 ^ 24 by omega),
    Nat.mod_eq_of_lt (show b3.toNat < 2 ^ 24 by omega), Nat.mod_eq_of_lt (show c.toNat < 2 ^ 24 by omega),
    Nat.mod_eq_of_lt (show b1.toNat * 2 ^ 16 < 2 ^ 24 by omega),
    Nat.mod_eq_of_lt (show b2.toNat * 2 ^ 8 < 2 ^ 24 by omega),
    Nat.mod_eq_of_lt (show c.toNat * 2 ^ 4 < 2 ^ 24 by omega)] at key
  simpa using key

/-- The table word of a command frame of code `c` (R105). -/
theorem TableRow.ofCommand (p : Params) (h : Header) (c : BitVec 4) (d : List Byte) :
    (Encoded.wire (commandLayout p ⟨h, c, d⟩)).tableWord &&& 0x0100F0 = 0x010000 ||| (c.toNat <<< 4) :=
  commandWord h c (BitVec.ofNat 4 d.length)

/-! ## One lemma per constructor -/

theorem TableRow.token (h : Header) : TableRow.Statement (.token h) := fun _ _ => headerWord h

theorem TableRow.solicitSuccessorRequest (h : Header) (d : List Byte) :
    TableRow.Statement (.solicitSuccessorRequest h d) :=
  fun p _ => ofCommand p h 1#4 d

theorem TableRow.solicitSuccessorResponse (h : Header) (d : List Byte) :
    TableRow.Statement (.solicitSuccessorResponse h d) :=
  fun p _ => ofCommand p h 2#4 d

theorem TableRow.getAddressRequest (h : Header) (d : List Byte) :
    TableRow.Statement (.getAddressRequest h d) :=
  fun p _ => ofCommand p h 3#4 d

theorem TableRow.getAddressResponse (h : Header) (d : List Byte) :
    TableRow.Statement (.getAddressResponse h d) :=
  fun p _ => ofCommand p h 4#4 d

theorem TableRow.setDeviceAddressRequest (h : Header) (d : List Byte) :
    TableRow.Statement (.setDeviceAddressRequest h d) :=
  fun p _ => ofCommand p h 5#4 d

theorem TableRow.setDeviceAddressResponse (h : Header) (d : List Byte) :
    TableRow.Statement (.setDeviceAddressResponse h d) :=
  fun p _ => ofCommand p h 6#4 d

theorem TableRow.setSuccessorAddressRequest (h : Header) (d : List Byte) :
    TableRow.Statement (.setSuccessorAddressRequest h d) :=
  fun p _ => ofCommand p h 7#4 d

theorem TableRow.setSuccessorAddressResponse (h : Header) (d : List Byte) :
    TableRow.Statement (.setSuccessorAddressResponse h d) :=
  fun p _ => ofCommand p h 8#4 d

theorem TableRow.request (h : Header) (d : List Byte) :
    TableRow.Statement (.request h d) :=
  fun p _ => ofCommand p h 9#4 d

theorem TableRow.response (h : Header) (d : List Byte) :
    TableRow.Statement (.response h d) :=
  fun p _ => ofCommand p h 10#4 d

theorem TableRow.ack (h : Header) (d : List Byte) :
    TableRow.Statement (.ack h d) :=
  fun p _ => ofCommand p h 11#4 d

theorem TableRow.busy (h : Header) (d : List Byte) :
    TableRow.Statement (.busy h d) :=
  fun p _ => ofCommand p h 12#4 d

theorem TableRow.cmd0 (h : Header) (d : List Byte) :
    TableRow.Statement (.cmd0 h d) :=
  fun p _ => ofCommand p h 0#4 d

theorem TableRow.cmd13 (h : Header) (d : List Byte) :
    TableRow.Statement (.cmd13 h d) :=
  fun p _ => ofCommand p h 13#4 d

theorem TableRow.cmd14 (h : Header) (d : List Byte) :
    TableRow.Statement (.cmd14 h d) :=
  fun p _ => ofCommand p h 14#4 d

theorem TableRow.cmd15 (h : Header) (d : List Byte) :
    TableRow.Statement (.cmd15 h d) :=
  fun p _ => ofCommand p h 15#4 d

theorem TableRow.openDevice (v : List Byte) : TableRow.Statement (.openDevice v) := by
  simp [TableRow.Statement, encode, Encoded.tableWord, Instr.row, hostRow]

theorem TableRow.start : TableRow.Statement .start := by
  simp [TableRow.Statement, encode, Encoded.tableWord, Instr.row, hostRow]

theorem TableRow.enqueueFrame (v : HostFrame) : TableRow.Statement (.enqueueFrame v) := by
  simp [TableRow.Statement, encode, Encoded.tableWord, Instr.row, hostRow]

theorem TableRow.sendFrame (v : HostFrame) : TableRow.Statement (.sendFrame v) := by
  simp [TableRow.Statement, encode, Encoded.tableWord, Instr.row, hostRow]

theorem TableRow.getState : TableRow.Statement .getState := by
  simp [TableRow.Statement, encode, Encoded.tableWord, Instr.row, hostRow]

theorem TableRow.isReady : TableRow.Statement .isReady := by
  simp [TableRow.Statement, encode, Encoded.tableWord, Instr.row, hostRow]

theorem TableRow.waitForCommandFrame : TableRow.Statement .waitForCommandFrame := by
  simp [TableRow.Statement, encode, Encoded.tableWord, Instr.row, hostRow]

theorem TableRow.readCounters : TableRow.Statement .readCounters := by
  simp [TableRow.Statement, encode, Encoded.tableWord, Instr.row, hostRow]

theorem TableRow.waitForToken : TableRow.Statement .waitForToken := by
  simp [TableRow.Statement, encode, Encoded.tableWord, Instr.row, hostRow]

theorem TableRow.encodeHeader (v : HostHeader) : TableRow.Statement (.encodeHeader v) := by
  simp [TableRow.Statement, encode, Encoded.tableWord, Instr.row, hostRow]

theorem TableRow.encodeCommandFrame (v : HostCommand) : TableRow.Statement (.encodeCommandFrame v) := by
  simp [TableRow.Statement, encode, Encoded.tableWord, Instr.row, hostRow]

theorem TableRow.decodeHeader (v : List Byte) : TableRow.Statement (.decodeHeader v) := by
  simp [TableRow.Statement, encode, Encoded.tableWord, Instr.row, hostRow]

theorem TableRow.decodeFrame (v : List Byte) : TableRow.Statement (.decodeFrame v) := by
  simp [TableRow.Statement, encode, Encoded.tableWord, Instr.row, hostRow]

theorem TableRow.readStatus : TableRow.Statement .readStatus := by
  simp [TableRow.Statement, encode, Encoded.tableWord, Instr.row, hostRow]

theorem TableRow.reset : TableRow.Statement .reset := by
  simp [TableRow.Statement, encode, Encoded.tableWord, Instr.row, hostRow]

end Sys2Proof.Laws
end

