-- ==== Sys2Proof/Laws/Receiver.lean ====
section
/-! SUPPORT. What the frame reader's operations do to each of its registers, and what each delivery can do. -/

namespace Sys2Proof.Machine

open Sys2Proof

/-! ## Storing a byte (R146, R147) -/

@[simp] theorem storeByte_rstate (p : Params) (v : Byte) (r : Receiver) : (storeByte p v r).rstate = r.rstate := rfl
@[simp] theorem storeByte_escPending (p : Params) (v : Byte) (r : Receiver) :
    (storeByte p v r).escPending = r.escPending := rfl
@[simp] theorem storeByte_rbuf (p : Params) (v : Byte) (r : Receiver) :
    (storeByte p v r).rbuf = r.rbuf.setIfInBounds r.rcount.toNat v := rfl
@[simp] theorem storeByte_rcount (p : Params) (v : Byte) (r : Receiver) :
    (storeByte p v r).rcount = r.rcount + 1#5 := rfl
@[simp] theorem storeByte_rlen (p : Params) (v : Byte) (r : Receiver) : (storeByte p v r).rlen = r.rlen := rfl
@[simp] theorem storeByte_rcrc (p : Params) (v : Byte) (r : Receiver) :
    (storeByte p v r).rcrc = chkStep p r.rcrc v := rfl
@[simp] theorem storeByte_rchk (p : Params) (v : Byte) (r : Receiver) : (storeByte p v r).rchk = r.rchk := rfl
@[simp] theorem storeByte_framesOk (p : Params) (v : Byte) (r : Receiver) :
    (storeByte p v r).framesOk = r.framesOk := rfl
@[simp] theorem storeByte_framesIncomplete (p : Params) (v : Byte) (r : Receiver) :
    (storeByte p v r).framesIncomplete = r.framesIncomplete := rfl
@[simp] theorem storeByte_chkFails (p : Params) (v : Byte) (r : Receiver) :
    (storeByte p v r).chkFails = r.chkFails := rfl

/-! ## Starting and abandoning a frame (R141, R144, R149) -/

@[simp] theorem startFrame_rstate (p : Params) (r : Receiver) : (startFrame p r).rstate = .readingHeader := rfl
@[simp] theorem startFrame_escPending (p : Params) (r : Receiver) : (startFrame p r).escPending = false := rfl
@[simp] theorem startFrame_rcount (p : Params) (r : Receiver) : (startFrame p r).rcount = 0#5 := rfl
@[simp] theorem startFrame_rlen (p : Params) (r : Receiver) : (startFrame p r).rlen = 0#4 := rfl
@[simp] theorem startFrame_rchk (p : Params) (r : Receiver) : (startFrame p r).rchk = [] := rfl
@[simp] theorem startFrame_rcrc (p : Params) (r : Receiver) :
    (startFrame p r).rcrc = if p.chkCoversMarker then chkStep p p.chkInit p.marker else p.chkInit := rfl
@[simp] theorem startFrame_rbuf (p : Params) (r : Receiver) : (startFrame p r).rbuf = r.rbuf := by
  by_cases h : r.rstate = .synchronizing <;> simp [startFrame, h, countIncomplete]
@[simp] theorem startFrame_framesOk (p : Params) (r : Receiver) : (startFrame p r).framesOk = r.framesOk := by
  by_cases h : r.rstate = .synchronizing <;> simp [startFrame, h, countIncomplete]
@[simp] theorem startFrame_chkFails (p : Params) (r : Receiver) : (startFrame p r).chkFails = r.chkFails := by
  by_cases h : r.rstate = .synchronizing <;> simp [startFrame, h, countIncomplete]
@[simp] theorem startFrame_framesIncomplete (p : Params) (r : Receiver) :
    (startFrame p r).framesIncomplete =
      if r.rstate = .synchronizing then r.framesIncomplete else r.framesIncomplete + 1#32 := by
  by_cases h : r.rstate = .synchronizing <;> simp [startFrame, h, countIncomplete]

@[simp] theorem resynchronize_rstate (r : Receiver) : (resynchronize r).rstate = .synchronizing := rfl
@[simp] theorem resynchronize_escPending (r : Receiver) : (resynchronize r).escPending = false := rfl
@[simp] theorem resynchronize_rbuf (r : Receiver) : (resynchronize r).rbuf = r.rbuf := rfl
@[simp] theorem resynchronize_rcount (r : Receiver) : (resynchronize r).rcount = r.rcount := rfl
@[simp] theorem resynchronize_rlen (r : Receiver) : (resynchronize r).rlen = r.rlen := rfl
@[simp] theorem resynchronize_rcrc (r : Receiver) : (resynchronize r).rcrc = r.rcrc := rfl
@[simp] theorem resynchronize_rchk (r : Receiver) : (resynchronize r).rchk = r.rchk := rfl
@[simp] theorem resynchronize_framesOk (r : Receiver) : (resynchronize r).framesOk = r.framesOk := rfl
@[simp] theorem resynchronize_framesIncomplete (r : Receiver) :
    (resynchronize r).framesIncomplete = r.framesIncomplete + 1#32 := rfl
@[simp] theorem resynchronize_chkFails (r : Receiver) : (resynchronize r).chkFails = r.chkFails := rfl

/-! ## What a delivery can do (R146 to R148) -/

/-- Everything a delivery in ReadingHeader can do. -/
theorem headerByte_cases (p : Params) (v : Byte) (r : Receiver) :
    (r.rcount + 1#5 = 2#5 ∧ typeOf (storeByte p v r).rbuf[0] = false ∧
      headerByte p v r = { storeByte p v r with rstate := .readingChecksum }) ∨
    (r.rcount + 1#5 = 3#5 ∧
      headerByte p v r = { storeByte p v r with
        rlen := lenOf v, rstate := if lenOf v = 0#4 then .readingChecksum else .readingPacket }) ∨
    (¬ (r.rcount + 1#5 = 2#5 ∧ typeOf (storeByte p v r).rbuf[0] = false) ∧ r.rcount + 1#5 ≠ 3#5 ∧
      headerByte p v r = storeByte p v r) := by
  by_cases h2 : r.rcount + 1#5 = 2#5 ∧ typeOf (storeByte p v r).rbuf[0] = false
  · exact .inl ⟨h2.1, h2.2, if_pos h2⟩
  · by_cases h3 : r.rcount + 1#5 = 3#5
    · exact .inr (.inl ⟨h3, (if_neg h2).trans (if_pos h3)⟩)
    · exact .inr (.inr ⟨h2, h3, (if_neg h2).trans (if_neg h3)⟩)

/-- Everything a delivery in ReadingPacket can do. -/
theorem packetByte_cases (p : Params) (v : Byte) (r : Receiver) :
    ((r.rcount + 1#5).toNat = 3 + r.rlen.toNat ∧
      packetByte p v r = { storeByte p v r with rstate := .readingChecksum }) ∨
    ((r.rcount + 1#5).toNat ≠ 3 + r.rlen.toNat ∧ packetByte p v r = storeByte p v r) := by
  by_cases h : (r.rcount + 1#5).toNat = 3 + r.rlen.toNat
  · exact .inl ⟨h, if_pos h⟩
  · exact .inr ⟨h, if_neg h⟩

/-- Everything a delivery in ReadingChecksum can do. -/
theorem checksumByte_cases (p : Params) (v : Byte) (r : Receiver) :
    ((r.rchk ++ [v]).length ≠ p.chkWidth.bytes ∧
      checksumByte p v r = ({ r with rchk := r.rchk ++ [v] }, .quiet)) ∨
    ((r.rchk ++ [v]).length = p.chkWidth.bytes ∧ assemble p (r.rchk ++ [v]) = chkFinal p r.rcrc ∧
      checksumByte p v r =
        ({ r with rchk := r.rchk ++ [v], framesOk := r.framesOk + 1#32, rstate := .synchronizing },
          .frame r.frame)) ∨
    ((r.rchk ++ [v]).length = p.chkWidth.bytes ∧ assemble p (r.rchk ++ [v]) ≠ chkFinal p r.rcrc ∧
      checksumByte p v r =
        ({ r with rchk := r.rchk ++ [v], chkFails := r.chkFails + 1#32, rstate := .synchronizing },
          .checksumFail)) := by
  by_cases hl : (r.rchk ++ [v]).length = p.chkWidth.bytes
  · by_cases hc : assemble p (r.rchk ++ [v]) = chkFinal p r.rcrc
    · exact .inr (.inl ⟨hl, hc, (if_pos hl).trans (if_pos hc)⟩)
    · exact .inr (.inr ⟨hl, hc, (if_pos hl).trans (if_neg hc)⟩)
  · exact .inl ⟨hl, if_neg hl⟩

/-- Everything an un-stuffed byte can do, by the state it arrives in. -/
theorem deliverByte_cases (p : Params) (v : Byte) (r : Receiver) :
    (r.rstate = .synchronizing ∧ deliverByte p v r = (r, .quiet)) ∨
    (r.rstate = .readingHeader ∧ deliverByte p v r = (headerByte p v r, .quiet)) ∨
    (r.rstate = .readingPacket ∧ deliverByte p v r = (packetByte p v r, .quiet)) ∨
    (r.rstate = .readingChecksum ∧ deliverByte p v r = checksumByte p v r) := by
  cases h : r.rstate <;> simp [deliverByte, h]

/-- Everything a byte of the wire can do (R141 to R145). -/
theorem receiveByte_cases (p : Params) (b : Byte) (r : Receiver) :
    (b = p.marker ∧ receiveByte p b r = (startFrame p r, .quiet)) ∨
    (b ≠ p.marker ∧ r.rstate = .synchronizing ∧ receiveByte p b r = (r, .quiet)) ∨
    (b ≠ p.marker ∧ r.rstate ≠ .synchronizing ∧ r.escPending = true ∧ isEscLiteral p b = true ∧
      receiveByte p b r = deliverByte p (escDec p b) { r with escPending := false }) ∨
    (b ≠ p.marker ∧ r.rstate ≠ .synchronizing ∧ r.escPending = true ∧ isEscLiteral p b = false ∧
      receiveByte p b r = (resynchronize r, .quiet)) ∨
    (b ≠ p.marker ∧ r.rstate ≠ .synchronizing ∧ r.escPending = false ∧ b = p.esc ∧
      receiveByte p b r = ({ r with escPending := true }, .quiet)) ∨
    (b ≠ p.marker ∧ r.rstate ≠ .synchronizing ∧ r.escPending = false ∧ b ≠ p.esc ∧
      receiveByte p b r = deliverByte p b r) := by
  by_cases hm : b = p.marker
  · exact .inl ⟨hm, if_pos hm⟩
  by_cases hs : r.rstate = .synchronizing
  · exact .inr (.inl ⟨hm, hs, (if_neg hm).trans (if_pos hs)⟩)
  right; right
  cases he : r.escPending <;> cases hl : isEscLiteral p b <;> by_cases hb : b = p.esc <;>
    simp [receiveByte, hm, hs, he, hl, hb] <;> simp_all

end Sys2Proof.Machine
end

