-- ==== Sys2Proof/Tests/Slice0.lean ====
section
/-! SUPPORT. The model's own tests: the well-formedness smoke, the decoding of a word of every row, vectors of
spec/95_test_vectors.md (each test names its row), and for every statement with hypotheses a state that meets them. -/

namespace Sys2Proof.Tests

open Sys2Proof Sys2Proof.Machine

-- One theorem after another: a kernel evaluation that waits for the ones before it would hold a thread each.
set_option Elab.async false

/-! ## Helpers -/

/-- The default profile with values for the parameters that R8 leaves OPEN. -/
def tp : Params where
  marker := 0xFD#8
  esc := 0xFC#8
  markerLit := 0x7D#8
  escLit := 0x7C#8
  chkWidth := .w16
  chkInit := 0x0000#16
  chkStepFn := .crcReflected 0x8408#16
  chkFinalFn := .xorWith 0x0000#16
  chkOrder := .lsbFirst
  chkCoversMarker := true
  unassignedWireId := 63#6
  masterStationId := 0#6
  queueDepth := some 2
  maxTxPerToken := some 1
  nTimeout := 3
  nChkFail := 2
  nRetry := 2
  durations := ⟨1, 1, 1, 1, 1, 1⟩

/-- An opened block in a state of the controller, with its id and successor. -/
def block (c : CState) (own succ : Option StationId) : State :=
  let s := State.resetWith tp
  { s with opened := true, ctl := { s.ctl with cstate := c, ownId := own, successor := succ } }

/-- The master 0 in a phase, holding the token. -/
def master (phase : MPhase) (known : BitVec 64) (succ : StationId) : State :=
  let s := block .master (some 0#6) (some succ)
  { s with ctl := { s.ctl with mphase := phase, known := known, holdsToken := true } }

/-- The master 0 in the dialogue with a station. -/
def dialogue (phase : MPhase) (known : BitVec 64) (succ pending : StationId) : State :=
  let s := master phase known succ
  { s with ctl := { s.ctl with pending := some pending, timer := some .resp } }

/-- A station with master 0. -/
def joiner (c : CState) (own : Option StationId) : State :=
  let s := block c own none
  { s with ctl := { s.ctl with peer := some 0#6, timer := some .resp } }

/-- The slave 1 whose successor is the master 0, not holding the token. -/
def slave1 : State :=
  let s := block .slave (some 1#6) (some 0#6)
  { s with ctl := { s.ctl with peer := some 0#6, timer := some .token } }

/-- A state with other controller registers. -/
def withCtl (f : Controller → Controller) (s : State) : State := { s with ctl := f s.ctl }

/-- A state with one event to come. -/
def withEvent (e : Event) (s : State) : State := { s with env := { s.env with schedule := [e] } }

/-- A state whose transport accepts so many more bytes. -/
def withRoom (n : Nat) (s : State) : State := { s with env := { s.env with writeRoom := some n } }

/-- One field of the next state. -/
def after {α : Type} (r : Result) (f : State → α) : Option α :=
  match r with
  | .next s => some (f s)
  | .fault _ => none
  | .refused _ => none

/-- A field of the next state says that there is one. -/
theorem next_of_after {α : Type} {r : Result} {f : State → α} {x : α} (h : after r f = some x) :
    ∃ s, r = .next s ∧ f s = x := by
  cases r <;> simp_all [after]

/-- A header without broadcast and with counter 0. -/
def hd (dest src : StationId) : Header := ⟨dest, false, src, 0#2⟩

/-- A broadcast header from a station. -/
def bcast (src : StationId) : Header := ⟨0#6, true, src, 0#2⟩

/-- The receiver after these bytes, whatever the controller does. -/
def feed (bs : List Byte) (r : Receiver) : Receiver := bs.foldl (fun r b => (receiveByte tp b r).1) r

/-- What a receiver's counters and state say: `RSTATE`, OK, INCOMPLETE, CHK. -/
def seen (r : Receiver) : RState × Nat × Nat × Nat :=
  (r.rstate, r.framesOk.toNat, r.framesIncomplete.toNat, r.chkFails.toNat)

/-- The host frame `Request dst=5 src=9 [01 AB CD]` of program P1. -/
def hostRequest9 : HostFrame := ⟨5, 0, 1, 9, 0, 9, [1, 0xAB, 0xCD]⟩

/-- A transport with exactly room for the bytes accepts them. -/
theorem canSend_exactly {bs : List Byte} {s : State} (h : s.env.writeRoom = some bs.length) : s.canSend bs := by
  intro room hr
  rw [h] at hr
  exact Nat.le_of_eq (Option.some.inj hr)

/-! ## Well-formedness: each check refuses an ill-formed term -/

/-- Sixteen bytes do not fit the length nibble (R84); fifteen do. -/
theorem test_wellFormed_refuses_long_payloads :
    [Instr.solicitSuccessorRequest, .solicitSuccessorResponse, .getAddressRequest, .getAddressResponse,
      .setDeviceAddressRequest, .setDeviceAddressResponse, .setSuccessorAddressRequest,
      .setSuccessorAddressResponse, .request, .response, .ack, .busy, .cmd0, .cmd13, .cmd14, .cmd15].all
      (fun k => (k (hd 5#6 3#6) (List.replicate 15 0#8)).wellFormed &&
        !(k (hd 5#6 3#6) (List.replicate 16 0#8)).wellFormed) = true := by decide

theorem test_wellFormed_frame_refuses_long_payload :
    (Frame.command ⟨hd 5#6 3#6, 9#4, List.replicate 16 0#8⟩).wellFormed = false := by decide

theorem test_wellFormed_params : tp.wellFormed = true := by decide

/-- Each constraint of R7 and R8, broken alone. -/
theorem test_wellFormed_refuses_params :
    [{ tp with marker := 0x7E#8 }, { tp with esc := 0x7B#8 }, { tp with esc := 0xFD#8 },
      { tp with escLit := 0x7D#8 }, { tp with markerLit := 0xFD#8 }, { tp with markerLit := 0xFC#8 },
      { tp with escLit := 0xFD#8 }, { tp with escLit := 0xFC#8 },
      { tp with chkWidth := .w8, chkInit := 0x0100#16 }, { tp with masterStationId := 63#6 },
      { tp with queueDepth := some 0 }, { tp with maxTxPerToken := some 0 }, { tp with nTimeout := 0 },
      { tp with nTimeout := 2 ^ 32 }, { tp with nChkFail := 0 }, { tp with nChkFail := 2 ^ 32 },
      { tp with nRetry := 2 ^ 32 - 1 }].all (fun p => !p.wellFormed) = true := by decide

/-! ## Decoding: a word of every row, written out from the spec's encodings (R82 to R84, R105, R276) -/

/-- `W16`: `dest` 15..10, `bc` 9, `type` 8, `src` 7..2, `ctr` 1..0. -/
theorem test_decode_token : decodeTableWord 16 0b000101_0_0_000011_00 = some (.token (hd 5#6 3#6)) := by decide

/-- `W24`: `dest` 23..18, `bc` 17, `type` 16, `src` 15..10, `ctr` 9..8, `cmd` 7..4, `len` 3..0. -/
theorem test_decode_solicitSuccessorRequest :
    decodeTableWord 24 0b000000_1_1_000000_00_0001_0000 = some (.solicitSuccessorRequest (bcast 0#6) []) := by decide

theorem test_decode_solicitSuccessorResponse :
    decodeTableWord 24 0b000000_0_1_000001_00_0010_0000 = some (.solicitSuccessorResponse (hd 0#6 1#6) []) := by
  decide

theorem test_decode_getAddressRequest :
    decodeTableWord 24 0b000000_0_1_111111_00_0011_0000 = some (.getAddressRequest (hd 0#6 63#6) []) := by decide

theorem test_decode_getAddressResponse :
    decodeTableWord 24 0b111111_0_1_000000_00_0100_0000 = some (.getAddressResponse (hd 63#6 0#6) []) := by decide

/-- The payload byte of a table word is zero: the id 0. -/
theorem test_decode_setDeviceAddressRequest :
    decodeTableWord 24 0b111111_0_1_000000_00_0101_0001 = some (.setDeviceAddressRequest (hd 63#6 0#6) [0#8]) := by
  decide

theorem test_decode_setDeviceAddressResponse :
    decodeTableWord 24 0b000000_0_1_000001_00_0110_0001 = some (.setDeviceAddressResponse (hd 0#6 1#6) [0#8]) := by
  decide

theorem test_decode_setSuccessorAddressRequest :
    decodeTableWord 24 0b000001_0_1_000000_00_0111_0001 = some (.setSuccessorAddressRequest (hd 1#6 0#6) [0#8]) := by
  decide

theorem test_decode_setSuccessorAddressResponse :
    decodeTableWord 24 0b000000_0_1_000001_00_1000_0001 =
      some (.setSuccessorAddressResponse (hd 0#6 1#6) [0#8]) := by decide

theorem test_decode_request :
    decodeTableWord 24 0b000101_0_1_000011_10_1001_0000 = some (.request ⟨5#6, false, 3#6, 2#2⟩ []) := by decide

theorem test_decode_response :
    decodeTableWord 24 0b000000_1_1_000000_11_1010_0010 = some (.response ⟨0#6, true, 0#6, 3#2⟩ [0#8, 0#8]) := by
  decide

theorem test_decode_ack :
    decodeTableWord 24 0b000000_0_1_000001_00_1011_0001 = some (.ack (hd 0#6 1#6) [0#8]) := by decide

theorem test_decode_busy :
    decodeTableWord 24 0b000000_0_1_000001_00_1100_0000 = some (.busy (hd 0#6 1#6) []) := by decide

theorem test_decode_cmd0 :
    decodeTableWord 24 0b000001_0_1_000000_00_0000_0000 = some (.cmd0 (hd 1#6 0#6) []) := by decide

theorem test_decode_cmd13 :
    decodeTableWord 24 0b000001_0_1_000000_00_1101_0000 = some (.cmd13 (hd 1#6 0#6) []) := by decide

theorem test_decode_cmd14 :
    decodeTableWord 24 0b000001_0_1_000000_00_1110_0000 = some (.cmd14 (hd 1#6 0#6) []) := by decide

theorem test_decode_cmd15 :
    decodeTableWord 24 0b000001_0_1_000000_00_1111_1101 = some (.cmd15 (hd 1#6 0#6) (List.replicate 13 0#8)) := by
  decide

/-- `HOP`, bits 7..0, with operands that are all zero. -/
theorem test_decode_host_operations :
    (List.range 16).map (decodeTableWord 8) =
      [some (.openDevice []), some .start, some (.enqueueFrame ⟨0, 0, 0, 0, 0, 0, []⟩),
        some (.sendFrame ⟨0, 0, 0, 0, 0, 0, []⟩), some .getState, some .isReady, some .waitForCommandFrame,
        some .readCounters, some .waitForToken, some (.encodeHeader ⟨0, 0, 0, 0, 0⟩),
        some (.encodeCommandFrame ⟨0, 0, 0, 0, 0, []⟩), some (.decodeHeader []), some (.decodeFrame []),
        some .readStatus, some .reset, none] := by decide

/-- 95_test_vectors W1: the worked example's bytes, with their payload. -/
theorem test_decode_worked_example :
    decode tp (.wire [0xFD#8, 0x15#8, 0x0C#8, 0x93#8, 0x01#8, 0xAB#8, 0xCD#8]) =
      .ok (.request (hd 5#6 3#6) [0x01#8, 0xAB#8, 0xCD#8]) := by decide

/-- The host's question of a table word: the next step after placing it runs the decoded frame. -/
theorem test_withFetchWord_frame :
    after (step (State.reset.withFetchWord 24 0x150C93)) (fun t => (t.ctl.cstate, t.out.rxOut)) =
      some (.slaveWaitingToJoin, [⟨.command ⟨hd 5#6 3#6, 9#4, [0#8, 0#8, 0#8]⟩, 0#32⟩]) := by decide +kernel

theorem test_withFetchWord_host :
    after (step (State.reset.withFetchWord 8 0x04)) (fun t => t.out.replies) =
      some [⟨0x04#8, .ok, .stateCode 0#4⟩] := by decide

/-! ## Codec (95_test_vectors sections 2, 3.1, 3.2) -/

theorem test_checksum_worked_example :
    checksum tp [0xFD#8, 0x15#8, 0x0C#8, 0x93#8, 0x01#8, 0xAB#8, 0xCD#8] = 0x5F79#16 := by decide +kernel

theorem test_checksum_token_trace :
    kermitStep 0#16 0xFD#8 = 0x2C6A#16 ∧ kermitStep 0x2C6A#16 0x14#8 = 0x9AD5#16 ∧
    kermitStep 0x9AD5#16 0x0C#8 = 0x4BD6#16 := by decide +kernel

/-- Another checksum over the bytes "123456789". -/
def checkOf (w : ChkWidth) (init : ChkReg) (f : ChkStepFn) (g : ChkFinalFn) : ChkReg :=
  let p := { tp with chkWidth := w, chkInit := init, chkStepFn := f, chkFinalFn := g }
  checksum p [0x31#8, 0x32#8, 0x33#8, 0x34#8, 0x35#8, 0x36#8, 0x37#8, 0x38#8, 0x39#8]

/-- The check values of CRC-8/SMBUS and CRC-8/MAXIM, from the published catalogue of CRCs (PRESUMED; log entry 3). -/
theorem test_checksum_other_crc8 :
    checkOf .w8 0x0000#16 (.crcForward 0x0007#16) (.xorWith 0x0000#16) = 0x00F4#16 ∧
    checkOf .w8 0x0000#16 (.crcReflected 0x008C#16) (.xorWith 0x0000#16) = 0x00A1#16 := by decide +kernel

/-- The check values of CRC-16/XMODEM and X-25, from the published catalogue of CRCs (PRESUMED; log entry 3). -/
theorem test_checksum_other_crc16 :
    checkOf .w16 0x0000#16 (.crcForward 0x1021#16) (.xorWith 0x0000#16) = 0x31C3#16 ∧
    checkOf .w16 0xFFFF#16 (.crcReflected 0x8408#16) (.xorWith 0xFFFF#16) = 0x906E#16 := by decide +kernel

/-- Functions given by their values: the register is 256 times the register plus the byte. -/
theorem test_checksum_table :
    let p := { tp with
      chkWidth := .w8, chkStepFn := .table [7#16, 0x01FF#16, 3#16], chkFinalFn := .table [1#16, 0x0205#16] }
    chkStep p 0#16 0#8 = 7#16 ∧ chkStep p 0#16 1#8 = 0x00FF#16 ∧ chkFinal p 1#16 = 0x0005#16 := by decide

theorem test_wire_token : tokenOnWire tp 3#6 5#6 = [0xFD#8, 0x14#8, 0x0C#8, 0xD6#8, 0x4B#8] := by decide +kernel

/-- Checksum high byte equals the marker. -/
theorem test_wire_checksum_stuffed :
    tokenOnWire tp 1#6 41#6 = [0xFD#8, 0xA4#8, 0x04#8, 0xF0#8, 0xFC#8, 0x7D#8] := by decide +kernel

/-- Both payload bytes stuffed. -/
theorem test_wire_payload_stuffed :
    wireImage tp (commandLayout tp ⟨⟨0#6, true, 0#6, 3#2⟩, 0xA#4, [0xFC#8, 0xFD#8]⟩) =
      [0xFD#8, 0x03#8, 0x03#8, 0xA2#8, 0xFC#8, 0x7C#8, 0xFC#8, 0x7D#8, 0xD0#8, 0x8E#8] := by decide +kernel

/-- Fifteen payload bytes (the maximum). -/
theorem test_wire_maximum :
    (wireImage tp (commandLayout tp ⟨⟨2#6, true, 4#6, 3#2⟩, 0xA#4, (List.range 15).map (BitVec.ofNat 8)⟩)).drop 19 =
      [0x24#8, 0x38#8] := by decide +kernel

/-! ## Frame reader (95_test_vectors section 3.3) -/

theorem test_reader_token :
    seen (feed [0xFD#8, 0x14#8, 0x0C#8, 0xD6#8, 0x4B#8] (Receiver.reset tp)) = (.synchronizing, 1, 0, 0) := by
  decide +kernel

theorem test_reader_checksum_failure :
    seen (feed [0xFD#8, 0x14#8, 0x0C#8, 0xD6#8, 0x4C#8] (Receiver.reset tp)) = (.synchronizing, 0, 0, 1) := by
  decide +kernel

theorem test_reader_escaped_payload :
    let r := feed [0xFD#8, 0x15#8, 0x0C#8, 0x91#8, 0xFC#8, 0x7D#8, 0x68#8, 0xC7#8] (Receiver.reset tp)
    seen r = (.synchronizing, 1, 0, 0) ∧ r.payload = [0xFD#8] := by decide +kernel

theorem test_reader_restart_beats_escape :
    seen (feed [0xFD#8, 0x15#8, 0xFC#8, 0xFD#8, 0x14#8, 0x0C#8, 0xD6#8, 0x4B#8] (Receiver.reset tp)) =
      (.synchronizing, 1, 1, 0) := by decide +kernel

theorem test_reader_violation :
    seen (feed [0xFD#8, 0x15#8, 0xFC#8, 0xFC#8] (Receiver.reset tp)) = (.synchronizing, 0, 1, 0) := by decide +kernel

theorem test_reader_truncation :
    seen (receiveIdle (feed [0xFD#8, 0x15#8, 0x0C#8, 0x93#8, 0x01#8] (Receiver.reset tp))) =
      (.synchronizing, 0, 1, 0) := by decide +kernel

/-! ## Ring arithmetic (95_test_vectors section 3.4) -/

theorem test_ring :
    ringSucc 1#6 0b1#64 = some 0#6 ∧ ringPred 1#6 0b1#64 = some 0#6 ∧ ringSucc 2#6 0b11#64 = some 0#6 ∧
    ringPred 2#6 0b11#64 = some 1#6 ∧ ringSucc 3#6 0b100101#64 = some 5#6 ∧ ringPred 3#6 0b100101#64 = some 2#6 ∧
    ringSucc 5#6 0b100101#64 = some 0#6 ∧ ringPred 5#6 0b100101#64 = some 2#6 := by decide +kernel

theorem test_assignId :
    (master .mSolicit 0#64 0#6).assignId = some 1#6 ∧ (master .mSolicit 0b110#64 0#6).assignId = some 3#6 ∧
    (master .mSolicit 0b100#64 0#6).assignId = some 1#6 ∧
    (master .mSolicit 0x7FFFFFFFFFFFFFFE#64 0#6).assignId = none := by decide +kernel

/-! ## Frame kinds, one step each (95_test_vectors section 3.5) -/

theorem test_token_first_is_passed_on :
    after (exec (.token (hd 1#6 0#6)) (block .slaveWaitingForFirstToken (some 1#6) (some 0#6)))
      (fun t => (t.ctl.cstate, t.ctl.tokenCounter, t.ctl.timer, t.out.wireOut)) =
      some (.slave, 1#32, some .token, [0xFD#8, 0x00#8, 0x04#8, 0x6F#8, 0x35#8]) := by decide +kernel

theorem test_token_duplicate :
    after (exec (.token (hd 0#6 1#6)) (master .mDrain 0b10#64 1#6)) (fun t => (t.ctl.cstate, t.ctl.lastError)) =
      some (.error, 7#8) := by decide +kernel

theorem test_solicit_joiner :
    after (exec (.solicitSuccessorRequest (bcast 0#6) []) (block .slaveWaitingToJoin none none))
      (fun t => (t.ctl.peer, t.ctl.timer, t.out.wireOut)) =
      some (some 0#6, some .resp, [0xFD#8, 0x01#8, 0xFC#8, 0x7C#8, 0x30#8, 0x53#8, 0x42#8]) := by decide +kernel

theorem test_solicit_master :
    after (exec (.solicitSuccessorRequest (bcast 5#6) []) (master .mIdle 0#64 0#6))
      (fun t => (t.ctl.cstate, t.ctl.lastError)) = some (.error, 8#8) := by decide +kernel

theorem test_solicitResponse :
    after (exec (.solicitSuccessorResponse (hd 0#6 1#6) []) (master .mIdle 0#64 0#6))
      (fun t => (t.ctl.cstate, t.ctl.rxCmdCounter, t.out.wireOut)) = some (.master, 1#32, []) := by decide +kernel

theorem test_getAddressRequest :
    after (exec (.getAddressRequest (hd 0#6 63#6) []) (master .mSolicit 0#64 0#6))
      (fun t => (t.ctl.pending, t.ctl.mphase, t.out.wireOut)) =
      some (some 1#6, .mWaitDevAck,
        [0xFD#8, 0xFC#8, 0x7D#8, 0x00#8, 0x40#8, 0xEB#8, 0xCD#8,
          0xFD#8, 0xFC#8, 0x7D#8, 0x00#8, 0x51#8, 0x01#8, 0xD0#8, 0xC4#8]) := by decide +kernel

theorem test_getAddressRequest_ignored :
    after (exec (.getAddressRequest (hd 0#6 63#6) []) (master .mWaitDevAck 0#64 0#6))
      (fun t => (t.ctl.pending, t.ctl.mphase, t.out.wireOut)) = some (none, .mWaitDevAck, []) := by decide +kernel

theorem test_getAddressResponse :
    after (exec (.getAddressResponse (hd 63#6 0#6) []) (joiner .slaveWaitingToJoin none))
      (fun t => (t.ctl.cstate, t.ctl.timer, t.out.wireOut)) = some (.slaveJoining, some .resp, []) := by
  decide +kernel

theorem test_setDeviceAddressRequest :
    after (exec (.setDeviceAddressRequest (hd 63#6 0#6) [0x01#8]) (joiner .slaveJoining none))
      (fun t => (t.ctl.ownId, t.out.wireOut)) =
      some (some 1#6, [0xFD#8, 0x01#8, 0x04#8, 0x61#8, 0x01#8, 0x0C#8, 0xF1#8]) := by decide +kernel

/-- 63 is invalid. -/
theorem test_setDeviceAddressRequest_invalid :
    after (exec (.setDeviceAddressRequest (hd 63#6 0#6) [0x3F#8]) (joiner .slaveJoining none))
      (fun t => (t.ctl.ownId, t.out.wireOut)) = some (none, []) := by decide +kernel

theorem test_setDeviceAddressResponse :
    after (exec (.setDeviceAddressResponse (hd 0#6 1#6) [0x01#8]) (dialogue .mWaitDevAck 0#64 0#6 1#6))
      (fun t => (t.ctl.mphase, t.out.wireOut)) =
      some (.mWaitSuccAck, [0xFD#8, 0x05#8, 0x00#8, 0x71#8, 0x00#8, 0x99#8, 0x64#8]) := by decide +kernel

theorem test_setSuccessorAddressRequest_joins :
    after (exec (.setSuccessorAddressRequest (hd 1#6 0#6) [0x00#8]) (joiner .slaveJoining (some 1#6)))
      (fun t => (t.ctl.successor, t.ctl.cstate, t.ctl.timer, t.out.wireOut)) =
      some (some 0#6, .slaveWaitingForFirstToken, some .token,
        [0xFD#8, 0x01#8, 0x04#8, 0x81#8, 0x00#8, 0x1C#8, 0x09#8]) := by decide +kernel

theorem test_setSuccessorAddressRequest_repoints :
    after (exec (.setSuccessorAddressRequest (hd 1#6 0#6) [0x02#8]) slave1)
      (fun t => (t.ctl.successor, t.ctl.cstate, t.ctl.timer, t.out.wireOut)) =
      some (some 2#6, .slave, some .token, [0xFD#8, 0x01#8, 0x04#8, 0x81#8, 0x02#8, 0x0E#8, 0x2A#8]) := by
  decide +kernel

theorem test_setSuccessorAddressResponse_closes :
    after (exec (.setSuccessorAddressResponse (hd 0#6 1#6) [0x00#8]) (dialogue .mWaitSuccAck 0#64 0#6 1#6))
      (fun t => (t.ctl.successor, t.ctl.known, t.ctl.mphase, t.out.wireOut)) =
      some (some 1#6, 0b10#64, .mIdle, [0xFD#8, 0x04#8, 0x00#8, 0x2B#8, 0x14#8]) := by decide +kernel

theorem test_setSuccessorAddressResponse_repoints :
    after (exec (.setSuccessorAddressResponse (hd 0#6 2#6) [0x00#8]) (dialogue .mWaitSuccAck 0b10#64 1#6 2#6))
      (fun t => (t.ctl.pendingPred, t.ctl.mphase, t.out.wireOut)) =
      some (some 1#6, .mWaitPredAck, [0xFD#8, 0x05#8, 0x00#8, 0x71#8, 0x02#8, 0x8B#8, 0x47#8]) := by decide +kernel

/-- The data kinds and the reserved codes count the frame and do nothing more (R249 to R253). -/
theorem test_data_and_reserved_kinds :
    [Instr.request, .response, .ack, .busy, .cmd0, .cmd13, .cmd14, .cmd15].map
      (fun k => after (exec (k (hd 1#6 0#6) [0x05#8]) slave1)
        (fun t => (t.ctl == { slave1.ctl with rxCmdCounter := 1#32 }, t.out.rxOut.length, t.out.wireOut))) =
      List.replicate 8 (some (true, 1, [])) := by decide +kernel

/-! ## Host operations, one step each (95_test_vectors section 3.6) -/

theorem test_open_and_its_failure :
    after (exec (.openDevice []) State.reset) (fun t => (t.opened, t.out.replies)) =
      some (true, [⟨0x00#8, .ok, .none⟩]) ∧
    after (exec (.openDevice []) { State.reset with env := { State.reset.env with openOk := false } })
      (fun t => (t.opened, t.out.replies)) = some (false, [⟨0x00#8, .openFailed, .none⟩]) := by decide +kernel

theorem test_start :
    after (exec .start (block .initial none none)) (fun t => (t.ctl.cstate, t.ctl.timer, t.out.logOut)) =
      some (.sensing, some .sense, [⟨.initial, .sensing, .start⟩]) ∧
    after (exec .start State.reset) (fun t => t.out.replies) = some [⟨0x01#8, .notOpen, .none⟩] := by decide +kernel

/-- The queue of depth 2 takes the frame, and refuses it when full. -/
theorem test_enqueueFrame :
    after (exec (.enqueueFrame hostRequest9) slave1) (fun t => t.ctl.txq) =
      some [⟨hd 5#6 9#6, 9#4, [0x01#8, 0xAB#8, 0xCD#8]⟩] ∧
    after (exec (.enqueueFrame hostRequest9)
      (withCtl (fun c => { c with txq := List.replicate 2 ⟨hd 5#6 9#6, 9#4, []⟩ }) slave1))
      (fun t => t.out.replies) = some [⟨0x02#8, .queueFull, .none⟩] := by decide +kernel

/-- `dest` is checked first. -/
theorem test_sendFrame :
    after (exec (.sendFrame { hostRequest9 with dest := 64, src := 64 }) slave1) (fun t => t.out.replies) =
      some [⟨0x03#8, .encodeError .dest, .none⟩] := by decide +kernel

theorem test_getState : after (exec .getState slave1) (fun t => t.out.replies) =
    some [⟨0x04#8, .ok, .stateCode 6#4⟩] := by decide +kernel

theorem test_isReady :
    after (exec .isReady slave1) (fun t => t.out.replies) = some [⟨0x05#8, .ok, .ready true⟩] ∧
    after (exec .isReady (block .slaveWaitingForFirstToken (some 1#6) (some 0#6))) (fun t => t.out.replies) =
      some [⟨0x05#8, .ok, .ready false⟩] := by decide +kernel

theorem test_waitForCommandFrame :
    after (exec .waitForCommandFrame slave1) (fun t => (t.waiters, t.out.replies)) = some ([⟨.cmd, false⟩], []) ∧
    after (exec (.request (hd 1#6 0#6) []) { slave1 with waiters := [⟨.cmd, false⟩, ⟨.tok, false⟩] })
      (fun t => t.waiters) = some [⟨.cmd, true⟩, ⟨.tok, false⟩] := by decide +kernel

theorem test_readCounters :
    after (exec .readCounters
      { slave1 with fatal := true, rx := { slave1.rx with framesOk := 2#32, framesIncomplete := 3#32, chkFails := 1#32 } })
      (fun t => t.out.replies) = some [⟨0x07#8, .ok, .counters 2#32 3#32 1#32⟩] := by decide +kernel

theorem test_waitForToken :
    after (exec .waitForToken { slave1 with fatal := true }) (fun t => (t.waiters, t.out.replies)) =
      some ([], [⟨0x08#8, .fatal, .none⟩]) := by decide +kernel

theorem test_encodeHeader :
    encodeHeaderBytes tp ⟨63, 0, 1, 0, 0⟩ = .ok [0xFD#8, 0xFD#8, 0x00#8] ∧
    after (exec (.encodeHeader ⟨0, 0, 1, 0, 4⟩) slave1) (fun t => t.out.replies) =
      some [⟨0x09#8, .encodeError .ctr, .none⟩] := by decide +kernel

theorem test_encodeCommandFrame :
    after (exec (.encodeCommandFrame ⟨5, 0, 3, 0, 9, [1, 0xAB, 0xCD]⟩) slave1) (fun t => t.out.replies) =
      some [⟨0x0A#8, .ok, .bytes [0xFD#8, 0x15#8, 0x0C#8, 0x93#8, 0x01#8, 0xAB#8, 0xCD#8]⟩] := by decide +kernel

theorem test_decodeHeader :
    after (exec (.decodeHeader [0xFD#8, 0x15#8, 0x0C#8]) slave1) (fun t => t.out.replies) =
      some [⟨0x0B#8, .ok, .header ⟨5#6, false, true, 3#6, 0#2⟩⟩] ∧
    after (exec (.decodeHeader [0x15#8, 0x0C#8, 0x93#8]) slave1) (fun t => t.out.replies) =
      some [⟨0x0B#8, .decodeError .noMarker, .none⟩] := by decide +kernel

/-- A format H layout has exactly three bytes. -/
theorem test_decodeFrame :
    after (exec (.decodeFrame [0xFD#8, 0x14#8, 0x0C#8, 0x00#8]) slave1) (fun t => t.out.replies) =
      some [⟨0x0C#8, .decodeError .length, .none⟩] ∧
    after (exec (.decodeFrame [0xFD#8, 0x14#8, 0x0C#8]) slave1) (fun t => t.out.replies) =
      some [⟨0x0C#8, .ok, .frame (.headerOnly (hd 5#6 3#6))⟩] := by decide +kernel

/-- The record of program P1, step 8. -/
theorem test_readStatus :
    after (exec .readStatus
      (withCtl (fun c => { c with tokenCounter := 2#32 }) (master .mSolicit 0#64 0#6))) (fun t => t.out.replies) =
      some [⟨0x0D#8, .ok, .statusRecord ⟨3#4, some 0#6, some 0#6, 0#8, 2#32, 0#32, 0, false, false, true⟩⟩] := by
  decide +kernel

theorem test_reset :
    after (exec .reset { slave1 with fatal := true, waiters := [⟨.tok, true⟩] })
      (fun t => (t.ctl == Controller.reset, t.rx == Receiver.reset tp, t.fatal, t.opened, t.waiters)) =
      some (true, true, false, false, []) := by decide +kernel

/-- HOP 0x0F (R276). -/
theorem test_badOp :
    after (step (withEvent (.hostCall { hop := 0x0F#8 }) slave1)) (fun t => t.out.replies) =
      some [⟨0x0F#8, .badOp, .none⟩] := by decide +kernel

/-! ## The controller's own steps (95_test_vectors sections 3.4, 3.7, P1, P4) -/

theorem test_election :
    after (step (withEvent (.timeout .sense)
      (withCtl (fun c => { c with timer := some .sense }) (block .sensing none none))))
      (fun t => ((t.ctl.cstate, t.ctl.ownId, t.ctl.successor), (t.ctl.tokenCounter, t.ctl.mphase, t.ctl.timer))) =
      some ((.master, some 0#6, some 0#6), (1#32, .mDrain, none)) := by decide +kernel

theorem test_tenure_solicits :
    after (step (withEvent .tenure (master .mDrain 0#64 0#6)))
      (fun t => (t.ctl.mphase, t.ctl.timer, t.out.wireOut)) =
      some (.mSolicit, some .joinWin, [0xFD#8, 0x03#8, 0x00#8, 0x10#8, 0x41#8, 0x03#8]) := by decide +kernel

/-- Station 3 of P4, step 4: the source is overwritten, and one frame is sent in a tenure. -/
theorem test_tenure_drains :
    after (step (withEvent .tenure
      (withCtl (fun c => { c with holdsToken := true, txq :=
          [⟨hd 5#6 9#6, 9#4, [0x01#8, 0xAB#8, 0xCD#8]⟩, ⟨⟨5#6, false, 9#6, 2#2⟩, 9#4, []⟩] }) (block .slave (some 3#6) (some 5#6)))))
      (fun t => (t.ctl.txq, t.ctl.holdsToken, t.out.wireOut)) =
      some ([⟨⟨5#6, false, 9#6, 2#2⟩, 9#4, []⟩], false,
        [0xFD#8, 0x15#8, 0x0C#8, 0x93#8, 0x01#8, 0xAB#8, 0xCD#8, 0x79#8, 0x5F#8,
          0xFD#8, 0x14#8, 0x0C#8, 0xD6#8, 0x4B#8]) := by decide +kernel

theorem test_join_window_alone :
    after (step (withEvent (.timeout .joinWin)
      (withCtl (fun c => { c with timer := some .joinWin }) (master .mSolicit 0#64 0#6))))
      (fun t => (t.ctl.mphase, t.ctl.holdsToken, t.ctl.tokenCounter, t.ctl.timer)) =
      some (.mDrain, true, 1#32, none) := by decide +kernel

theorem test_reply_timeout :
    after (step (withEvent (.timeout .resp) (dialogue .mWaitDevAck 0b10#64 1#6 2#6)))
      (fun t => ((t.ctl.mphase, t.ctl.toCount), t.ctl.pending, t.ctl.timer, t.out.wireOut)) =
      some ((.mIdle, 1#32), none, some .token, [0xFD#8, 0x04#8, 0x00#8, 0x2B#8, 0x14#8]) := by decide +kernel

theorem test_token_lost :
    after (step (withEvent (.timeout .token) slave1))
      (fun t => ((t.ctl.cstate, t.ctl.lastError), t.ctl.errRetries, t.ctl.ownId, t.out.logOut)) =
      some ((.error, 4#8), 1#32, none, [⟨.slave, .error, .stateError .tokenLost⟩]) := by decide +kernel

/-- The third error entry of a block with `N_RETRY = 2`. -/
theorem test_persistent_failure :
    let t := enterError .repeatedTimeouts
      (withCtl (fun c => { c with errRetries := 2#32 }) (joiner .slaveJoining none))
    t.ctl.errRetries = 3#32 ∧ t.ctl.persistFail = true ∧ t.errorExitEnabled = false ∧ t.ready = false := by
  decide +kernel

theorem test_duplicate_station :
    after (exec (.request (hd 0#6 0#6) []) (master .mIdle 0#64 0#6)) (fun t => (t.ctl.cstate, t.ctl.lastError)) =
      some (.error, 6#8) := by decide +kernel

theorem test_write_failure :
    after (step (withEvent .tenure (withRoom 3 (master .mDrain 0#64 0#6))))
      (fun t => (t.fatal, t.ctl.lastError, t.ctl.cstate, t.out.wireOut)) =
      some (true, 2#8, .master, [0xFD#8, 0x03#8, 0x00#8]) := by decide +kernel

/-! ## Witnesses: for every statement of the certificate with hypotheses, states and operands that meet them

Each theorem carries its statement's name. A conjunct stands for one clause, at a boundary of its range where it has one. -/

/-- A running block that holds a frame's bytes, its last wire byte to come (the placing of Machine/Fetch.lean). -/
def before (i : Instr) (s : State) : State := s.stage (encode s.params i)

/-- The three classes of a last checksum byte: `4B` plain, `FD` escaped, `FC` escaped. -/
def lastPlain : State := before (.token (hd 5#6 3#6)) slave1
def lastMarker : State := before (.token (hd 41#6 1#6)) slave1
def lastEsc : State := before (.token (hd 12#6 46#6)) slave1

/-- The receiver's invariant is decided by evaluation on a concrete state. -/
theorem receiverInv_of {p : Params} {r : Receiver}
    (h : r.rcount.toNat ≤ 18 ∧ r.rchk.length ≤ p.chkWidth.bytes ∧
      (r.rstate = .synchronizing → r.escPending = false) ∧
      (r.rstate = .readingHeader → r.rcount.toNat ≤ 2 ∧ (r.rcount.toNat = 2 → typeOf r.rbuf[0] = true) ∧ r.rchk = []) ∧
      (r.rstate = .readingPacket → typeOf r.rbuf[0] = true ∧ r.rlen = lenOf r.rbuf[2] ∧ 3 ≤ r.rcount.toNat ∧
        r.rcount.toNat < 3 + r.rlen.toNat ∧ r.rchk = []) ∧
      (r.rstate = .readingChecksum → r.rchk.length < p.chkWidth.bytes ∧
        ((typeOf r.rbuf[0] = false ∧ r.rcount.toNat = 2) ∨
          (typeOf r.rbuf[0] = true ∧ r.rlen = lenOf r.rbuf[2] ∧ r.rcount.toNat = 3 + r.rlen.toNat)))) :
    ReceiverInv p r := ⟨h.1, h.2.1, h.2.2.1, h.2.2.2.1, h.2.2.2.2.1, h.2.2.2.2.2⟩

theorem witness_DecodeOfEncodeIsTheInstruction :
    (Instr.cmd15 ⟨63#6, true, 63#6, 3#2⟩ (List.replicate 15 0xFF#8)).wellFormed = true := by decide

theorem witness_CodecRoundTrips :
    tp.wellFormed = true ∧
    encodeHeaderBytes tp ⟨63, 1, 1, 63, 3⟩ = .ok [0xFD#8, 0xFF#8, 0xFF#8] ∧
    encodeCommandBytes tp ⟨5, 0, 3, 2, 9, []⟩ = .ok [0xFD#8, 0x15#8, 0x0E#8, 0x90#8] := by decide +kernel

theorem witness_MarkerOnlyAtTheFrontOfAWireImage : tp.wellFormed = true := by decide

theorem witness_ImageLengths :
    tp.chkWidth = .w16 ∧ (Frame.headerOnly (hd 63#6 63#6)).wellFormed = true ∧
    (Frame.command ⟨hd 63#6 63#6, 9#4, List.replicate 15 0xFD#8⟩).wellFormed = true := by decide

theorem witness_StepRunsTheHostOperation :
    (withEvent (.hostCall { hop := 0x0E#8 }) slave1).env.schedule = .hostCall { hop := 0x0E#8 } :: [] ∧
    decode slave1.params (.host { hop := 0x0E#8 }) = .ok .reset ∧
    (withEvent (.hostCall { hop := 0x0F#8 }) slave1).env.schedule = .hostCall { hop := 0x0F#8 } :: [] ∧
    15 ≤ (0x0F#8).toNat := by decide

theorem witness_StepRunsTheReceivedFrame_running :
    lastPlain.running ∧ lastMarker.running ∧ lastEsc.running := ⟨⟨rfl, rfl⟩, ⟨rfl, rfl⟩, ⟨rfl, rfl⟩⟩

theorem witness_StepRunsTheReceivedFrame_receiver :
    ReceiverInv lastPlain.params lastPlain.rx ∧ ReceiverInv lastMarker.params lastMarker.rx ∧
    ReceiverInv lastEsc.params lastEsc.rx :=
  ⟨receiverInv_of (by decide +kernel), receiverInv_of (by decide +kernel), receiverInv_of (by decide +kernel)⟩

/-- The other hypotheses of StepRunsTheReceivedFrame, for one byte class. -/
def lastByteReady (s : State) (b v : Byte) (i : Instr) : Bool :=
  decide (s.env.schedule = [.rxByte b]) && decide (s.ctl.cstate ≠ .initial) &&
  decide (s.ctl.cstate ≠ .broadcastingStationId) && s.params.wellFormed && decide (s.rx.rstate = .readingChecksum) &&
  decide ((s.rx.rchk ++ [v]).length = s.params.chkWidth.bytes) &&
  decide (assemble s.params (s.rx.rchk ++ [v]) = chkFinal s.params s.rx.rcrc) &&
  decide (decode s.params (.wire (s.params.marker :: s.rx.rbuf.toList.take s.rx.rcount.toNat)) = .ok i)

theorem witness_StepRunsTheReceivedFrame :
    (lastByteReady lastPlain 0x4B#8 0x4B#8 (.token (hd 5#6 3#6)) = true ∧ lastPlain.rx.escPending = false) ∧
    (lastByteReady lastMarker 0x7D#8 0xFD#8 (.token (hd 41#6 1#6)) = true ∧ lastMarker.rx.escPending = true) ∧
    (lastByteReady lastEsc 0x7C#8 0xFC#8 (.token (hd 12#6 46#6)) = true ∧ lastEsc.rx.escPending = true) := by
  decide +kernel

theorem witness_ReceiverRunsEveryTransmittedFrame :
    let f : Frame := .command ⟨hd 1#6 0#6, 9#4, [0xFD#8]⟩
    let s : State := { slave1 with
      env := { slave1.env with schedule := (wireImage slave1.params (frameLayout slave1.params f)).map Event.rxByte ++ [] } }
    s.params.wellFormed = true ∧ f.wellFormed = true ∧ s.running ∧ s.ctl.cstate ≠ .initial ∧
    s.ctl.cstate ≠ .broadcastingStationId ∧
    s.env.schedule = (wireImage s.params (frameLayout s.params f)).map Event.rxByte ++ [] := by
  refine ⟨by decide, by decide, ⟨rfl, rfl⟩, by decide, by decide, rfl⟩

/-- A frame, a checksum failure, and a quiet byte. -/
theorem witness_ReceiverCountersAccountForEveryByte :
    (receiveByte tp 0x4B#8 lastPlain.rx).2 = .frame (.headerOnly (hd 5#6 3#6)) ∧
    (receiveByte tp 0x4C#8 lastPlain.rx).2 = .checksumFail ∧
    (receiveByte tp 0xFD#8 lastPlain.rx).2 = .quiet := by decide +kernel

/-- The slave while it reads a frame, with or without a pending escape. -/
def reading (esc : Bool) : State :=
  { slave1 with rx := { slave1.rx with rstate := .readingHeader, escPending := esc } }

theorem witness_MarkersEscapesAndIdleInTheReceiver :
    (reading true).running ∧ slave1.running ∧ (reading true).ctl.cstate = .slave ∧ tp.wellFormed = true ∧
    (withEvent (.rxByte tp.marker) (reading true)).env.schedule = [.rxByte tp.marker] ∧
    (slave1.rx.rstate = .synchronizing ∧ (0xFC#8) ≠ tp.marker) ∧
    ((reading false).rx.rstate ≠ .synchronizing ∧ (reading false).rx.escPending = false) ∧
    ((0xFC#8) ≠ tp.marker ∧ (0xFC#8) ≠ tp.markerLit ∧ (0xFC#8) ≠ tp.escLit ∧
      (reading true).rx.rstate ≠ .synchronizing ∧ (reading true).rx.escPending = true) ∧
    (withEvent .rxIdle (reading true)).env.schedule = [.rxIdle] ∧
    (withEvent .rxIdle slave1).rx.rstate = .synchronizing :=
  ⟨⟨rfl, rfl⟩, ⟨rfl, rfl⟩, by decide, by decide, rfl, by decide, by decide, by decide, rfl, rfl⟩

theorem witness_ChecksumMismatchIsCounted :
    (withEvent (.rxByte 0x4C#8) lastPlain).env.schedule = [.rxByte 0x4C#8] ∧ lastPlain.running ∧
    lastPlain.ctl.cstate = .slave ∧ (receiveByte lastPlain.params 0x4C#8 lastPlain.rx).2 = .checksumFail :=
  ⟨rfl, ⟨rfl, rfl⟩, by decide +kernel, by decide +kernel⟩

/-- A block in Sensing whose transport takes just the answer. -/
def sensing : State := withRoom 7 (block .sensing none none)

theorem witness_SensingMovesOnTheFirstFrame :
    (Instr.token (hd 1#6 0#6)).frame? = some (.headerOnly (hd 1#6 0#6)) ∧ sensing.running ∧
    sensing.ctl.cstate = .sensing ∧ (∀ d, Instr.token (hd 1#6 0#6) ≠ .solicitSuccessorRequest (hd 1#6 0#6) d) ∧
    (Instr.solicitSuccessorRequest (hd 1#6 0#6) []).frame? = some (.command ⟨hd 1#6 0#6, 1#4, []⟩) ∧
    (Instr.solicitSuccessorRequest (bcast 0#6) []).frame? = some (.command ⟨bcast 0#6, 1#4, []⟩) ∧
    (bcast 0#6).bc = true ∧
    sensing.canSend (commandOnWire sensing.params sensing.wireId 0x3#4 0#6 false []) :=
  ⟨rfl, ⟨rfl, rfl⟩, rfl, (by intro d h; cases h), rfl, rfl, rfl, canSend_exactly (by decide +kernel)⟩

theorem witness_DuplicateStationEntersError :
    (Instr.request (hd 0#6 1#6) []).frame? = some (.command ⟨hd 0#6 1#6, 9#4, []⟩) ∧
    slave1.running ∧ slave1.ctl.ownId = some 1#6 ∧ slave1.ctl.cstate = .slave ∧
    (joiner .slaveJoining (some 1#6)).running ∧ (joiner .slaveJoining (some 1#6)).ctl.ownId = some 1#6 :=
  ⟨rfl, ⟨rfl, rfl⟩, rfl, rfl, ⟨rfl, rfl⟩, rfl⟩

theorem witness_FramesInErrorAndInInactiveBlocks :
    (block .error none none).running ∧ (block .error none none).ctl.cstate = .error ∧
    State.reset.opened = false ∧ (block .initial none none).ctl.cstate = .initial ∧
    ({ slave1 with fatal := true } : State).fatal = true ∧
    (block .broadcastingStationId none none).running ∧
    (block .broadcastingStationId none none).ctl.cstate = .broadcastingStationId :=
  ⟨⟨rfl, rfl⟩, rfl, rfl, rfl, rfl, ⟨rfl, rfl⟩, rfl⟩

theorem witness_DataAndReservedKindsAreOnlyRecorded :
    slave1.running ∧ slave1.ctl.cstate ≠ .initial ∧ slave1.ctl.cstate ≠ .broadcastingStationId ∧
    slave1.ctl.cstate ≠ .sensing ∧ slave1.ctl.ownId ≠ some (hd 1#6 0#6).src :=
  ⟨⟨rfl, rfl⟩, by decide, by decide, by decide, by decide⟩

theorem witness_TokenIsTakenOrIsADuplicate :
    slave1.running ∧ slave1.ctl.ownId = some 1#6 ∧ (hd 1#6 0#6).dest = 1#6 ∧ (hd 1#6 0#6).src ≠ 1#6 ∧
    slave1.ctl.cstate = .slave ∧ slave1.ctl.holdsToken = false ∧
    ((master .mIdle 0b10#64 1#6).running ∧ (master .mIdle 0b10#64 1#6).ctl.mphase = .mIdle) ∧
    ((withCtl (fun c => { c with holdsToken := true }) slave1).running ∧
      (withCtl (fun c => { c with holdsToken := true }) slave1).ctl.holdsToken = true) ∧
    (master .mDrain 0b10#64 1#6).ctl.mphase ≠ .mIdle :=
  ⟨⟨rfl, rfl⟩, rfl, rfl, by decide, rfl, rfl, ⟨⟨rfl, rfl⟩, rfl⟩, ⟨⟨rfl, rfl⟩, rfl⟩, by decide⟩

/-- Station 1 before its first token. -/
def waiting1 : State := withRoom 5 (block .slaveWaitingForFirstToken (some 1#6) (some 0#6))

theorem witness_FirstTokenIsPassedOnUndrained :
    waiting1.running ∧ waiting1.ctl.cstate = .slaveWaitingForFirstToken ∧ waiting1.ctl.ownId = some 1#6 ∧
    waiting1.ctl.successor = some 0#6 ∧ (0#6) ≠ 1#6 ∧ (hd 1#6 0#6).bc = false ∧ (hd 1#6 0#6).dest = 1#6 ∧
    (hd 1#6 0#6).src ≠ 1#6 ∧ waiting1.canSend (tokenOnWire waiting1.params 1#6 0#6) :=
  ⟨⟨rfl, rfl⟩, rfl, rfl, rfl, by decide, rfl, rfl, by decide, canSend_exactly (by decide +kernel)⟩

theorem witness_TokenForOthersIsIgnored :
    slave1.running ∧ slave1.ctl.cstate = .slave ∧ slave1.ctl.ownId ≠ some 0#6 ∧
    (bcast 0#6).bc = true ∧ (hd 2#6 0#6).dest ≠ slave1.wireId ∧
    (joiner .slaveWaitingToJoin none).running ∧ (joiner .slaveJoining none).running ∧
    (block .error none none).running :=
  ⟨⟨rfl, rfl⟩, rfl, by decide, rfl, by decide, ⟨rfl, rfl⟩, ⟨rfl, rfl⟩, ⟨rfl, rfl⟩⟩

/-- A joiner without a master. -/
def seeking : State := withRoom 7 (block .slaveWaitingToJoin none none)

theorem witness_SolicitIsAnsweredByAJoiner :
    (seeking.running ∧ seeking.ctl.ownId ≠ some (bcast 0#6).src ∧ seeking.ctl.cstate = .slaveWaitingToJoin ∧
      seeking.ctl.peer = none ∧ (bcast 0#6).bc = true ∧
      seeking.canSend (commandOnWire seeking.params seeking.wireId 0x3#4 0#6 false [])) ∧
    ((master .mIdle 0#64 0#6).running ∧ (master .mIdle 0#64 0#6).ctl.cstate = .master ∧
      (master .mIdle 0#64 0#6).ctl.ownId ≠ some (bcast 5#6).src) ∧
    ((joiner .slaveWaitingToJoin none).running ∧ (joiner .slaveWaitingToJoin none).ctl.peer ≠ none ∧
      (hd 63#6 0#6).bc = false) :=
  ⟨⟨⟨rfl, rfl⟩, by decide, rfl, rfl, rfl, canSend_exactly (by decide +kernel)⟩,
    ⟨⟨rfl, rfl⟩, rfl, by decide⟩, ⟨⟨rfl, rfl⟩, by decide, rfl⟩⟩

/-- The soliciting master with room for its offer, and with a full ring. -/
def offering : State := withRoom 15 (master .mSolicit 0#64 0#6)
def ringFull : State := master .mSolicit 0x7FFFFFFFFFFFFFFE#64 1#6

theorem witness_MasterOffersAnAddress :
    (offering.running ∧ offering.ctl.cstate = .master ∧ offering.ctl.mphase = .mSolicit ∧
      offering.ctl.ownId = some 0#6 ∧ (hd 0#6 63#6).dest = 0#6 ∧ (hd 0#6 63#6).src ≠ 0#6 ∧
      offering.assignId = some 1#6) ∧
    offering.canSend (commandOnWire offering.params 0#6 0x4#4 63#6 false [] ++
      commandOnWire offering.params 0#6 0x5#4 63#6 false [(1#6).setWidth 8]) ∧
    (ringFull.running ∧ ringFull.ctl.cstate = .master ∧ ringFull.ctl.mphase = .mSolicit ∧ ringFull.assignId = none) :=
  ⟨⟨⟨rfl, rfl⟩, rfl, rfl, rfl, rfl, by decide, by decide +kernel⟩, canSend_exactly (by decide +kernel),
    ⟨⟨rfl, rfl⟩, rfl, rfl, by decide +kernel⟩⟩

theorem witness_JoinerAcceptsItsMastersOffer :
    (joiner .slaveWaitingToJoin none).running ∧ (joiner .slaveWaitingToJoin none).ctl.cstate = .slaveWaitingToJoin ∧
    (joiner .slaveWaitingToJoin none).ctl.ownId = none ∧
    (joiner .slaveWaitingToJoin none).ctl.peer = some (hd 63#6 0#6).src ∧ (hd 63#6 0#6).bc = false ∧
    (hd 63#6 0#6).dest = tp.unassignedWireId ∧
    (joiner .slaveWaitingToJoin none).ctl.peer ≠ some (hd 63#6 2#6).src :=
  ⟨⟨rfl, rfl⟩, rfl, rfl, rfl, rfl, rfl, by decide⟩

/-- A joiner in SlaveJoining with room for one reply with a payload. -/
def joining (own : Option StationId) : State := withRoom 7 (joiner .slaveJoining own)

/-- The lowest and the highest id it takes (1 and 62; the master is 0), and the first byte above the ids. -/
theorem witness_JoinerTakesItsAddress :
    ((joining none).running ∧ (joining none).ctl.cstate = .slaveJoining ∧ (joining none).ctl.ownId = none ∧
      (joining none).ctl.peer = some (hd 63#6 0#6).src ∧ (hd 63#6 0#6).bc = false ∧
      (hd 63#6 0#6).dest = (joining none).params.unassignedWireId) ∧
    ((0x01#8).toNat = (1#6).toNat ∧ (1#6) ≠ tp.unassignedWireId ∧ (1#6) ≠ (hd 63#6 0#6).src ∧
      (joining none).canSend (commandOnWire (joining none).params 1#6 0x6#4 0#6 false [0x01#8])) ∧
    ((0x3E#8).toNat = (62#6).toNat ∧ (62#6) ≠ tp.unassignedWireId ∧ (62#6) ≠ (hd 63#6 0#6).src) ∧
    (63 < (0x40#8).toNat ∧ (0x3F#8).toNat = tp.unassignedWireId.toNat ∧ (0x00#8).toNat = (hd 63#6 0#6).src.toNat) :=
  ⟨⟨⟨rfl, rfl⟩, rfl, rfl, rfl, rfl, rfl⟩, ⟨by decide, by decide, by decide, canSend_exactly (by decide +kernel)⟩,
    by decide, by decide⟩

/-- The master that waits for station 1's acknowledgement. -/
def awaiting : State := withRoom 7 (dialogue .mWaitDevAck 0#64 0#6 1#6)

theorem witness_MasterSetsTheNewStationsSuccessor :
    (awaiting.running ∧ awaiting.ctl.cstate = .master ∧ awaiting.ctl.mphase = .mWaitDevAck ∧
      awaiting.ctl.ownId = some 0#6 ∧ (hd 0#6 1#6).src ≠ 0#6) ∧
    (awaiting.ctl.pending = some (hd 0#6 1#6).src ∧ (hd 0#6 1#6).bc = false ∧ (hd 0#6 1#6).dest = 0#6 ∧
      ringSucc 1#6 (insertId awaiting.ctl.known 0#6) = some 0#6 ∧
      awaiting.canSend (commandOnWire awaiting.params 0#6 0x7#4 1#6 false [(0#6).setWidth 8])) ∧
    (awaiting.ctl.pending ≠ some (hd 0#6 2#6).src ∧ (hd 0#6 2#6).src ≠ 0#6) :=
  ⟨⟨⟨rfl, rfl⟩, rfl, rfl, rfl, by decide⟩,
    ⟨rfl, rfl, rfl, by decide +kernel, canSend_exactly (by decide +kernel)⟩, by decide⟩

theorem witness_StationTakesItsSuccessor :
    ((joining (some 1#6)).running ∧ (joining (some 1#6)).ctl.cstate = .slaveJoining ∧
      (joining (some 1#6)).ctl.ownId = some 1#6 ∧ (hd 1#6 0#6).src ≠ 1#6 ∧
      (joining (some 1#6)).ctl.peer = some (hd 1#6 0#6).src ∧ (hd 1#6 0#6).bc = false ∧ (hd 1#6 0#6).dest = 1#6) ∧
    ((withRoom 7 slave1).running ∧ (withRoom 7 slave1).ctl.cstate = .slave ∧
      (withRoom 7 slave1).ctl.peer = some (hd 1#6 0#6).src) ∧
    ((0x00#8).toNat = (0#6).toNat ∧ (0#6) ≠ 1#6 ∧ (0#6) ≠ tp.unassignedWireId) ∧
    ((0x3E#8).toNat = (62#6).toNat ∧ (62#6) ≠ 1#6 ∧ (62#6) ≠ tp.unassignedWireId) ∧
    (joining (some 1#6)).canSend (commandOnWire (joining (some 1#6)).params 1#6 0x8#4 0#6 false [0x00#8]) ∧
    (withRoom 7 slave1).canSend (commandOnWire slave1.params 1#6 0x8#4 0#6 false [0x00#8]) ∧
    (63 < (0x40#8).toNat ∧ (0x01#8).toNat = (1#6).toNat ∧ (0x3F#8).toNat = tp.unassignedWireId.toNat) :=
  ⟨⟨⟨rfl, rfl⟩, rfl, rfl, by decide, rfl, rfl, rfl⟩, ⟨⟨rfl, rfl⟩, rfl, rfl⟩, by decide, by decide,
    canSend_exactly (by decide +kernel), canSend_exactly (by decide +kernel), by decide⟩

/-- The master that closes a ring of two, and one whose new station 2 follows station 1. -/
def closing : State := withRoom 5 (dialogue .mWaitSuccAck 0#64 0#6 1#6)
def repointing : State := withRoom 7 (dialogue .mWaitSuccAck 0b10#64 1#6 2#6)

theorem witness_MasterClosesTheRingOrRepointsThePredecessor :
    (closing.running ∧ closing.ctl.cstate = .master ∧ closing.ctl.mphase = .mWaitSuccAck ∧
      closing.ctl.ownId = some 0#6 ∧ (hd 0#6 1#6).src ≠ 0#6 ∧ closing.ctl.pending = some (hd 0#6 1#6).src ∧
      (hd 0#6 1#6).bc = false ∧ (hd 0#6 1#6).dest = 0#6 ∧
      ringPred 1#6 (insertId closing.ctl.known 0#6) = some 0#6 ∧
      closing.canSend (tokenOnWire closing.params 0#6 1#6)) ∧
    (repointing.running ∧ repointing.ctl.cstate = .master ∧ repointing.ctl.mphase = .mWaitSuccAck ∧
      repointing.ctl.ownId = some 0#6 ∧ repointing.ctl.pending = some (hd 0#6 2#6).src ∧
      ringPred 2#6 (insertId repointing.ctl.known 0#6) = some 1#6 ∧ (1#6) ≠ 0#6 ∧
      repointing.canSend (commandOnWire repointing.params 0#6 0x7#4 1#6 false [(2#6).setWidth 8])) :=
  ⟨⟨⟨rfl, rfl⟩, rfl, rfl, rfl, by decide, rfl, rfl, rfl, by decide +kernel, canSend_exactly (by decide +kernel)⟩,
    ⟨⟨rfl, rfl⟩, rfl, rfl, rfl, rfl, by decide +kernel, by decide, canSend_exactly (by decide +kernel)⟩⟩

/-- The master that waits for the predecessor 1 of the new station 2. -/
def admitting : State :=
  withRoom 5 (withCtl (fun c => { c with pendingPred := some 1#6 }) (dialogue .mWaitPredAck 0b10#64 1#6 2#6))

theorem witness_MasterAdmitsTheStation :
    admitting.running ∧ admitting.ctl.cstate = .master ∧ admitting.ctl.mphase = .mWaitPredAck ∧
    admitting.ctl.ownId = some 0#6 ∧ (hd 0#6 1#6).src ≠ 0#6 ∧ admitting.ctl.pendingPred = some (hd 0#6 1#6).src ∧
    admitting.ctl.pending = some 2#6 ∧ (hd 0#6 1#6).bc = false ∧ (hd 0#6 1#6).dest = 0#6 ∧
    admitting.ctl.successor = some 1#6 ∧ (1#6) ≠ 0#6 ∧ admitting.canSend (tokenOnWire admitting.params 0#6 1#6) :=
  ⟨⟨rfl, rfl⟩, rfl, rfl, rfl, by decide, rfl, rfl, rfl, rfl, rfl, by decide, canSend_exactly (by decide +kernel)⟩

/-- One set with a member on both sides of 3, and sets with members on one side only. -/
theorem witness_RingNeighboursAreNearest :
    (0b100101#64) ≠ 0#64 ∧ (0b1#64) ≠ 0#64 ∧ (0x8000000000000000#64) ≠ 0#64 := by decide

theorem witness_AssignedIdIsTheLowestFree :
    offering.assignId = some 1#6 ∧ ringFull.assignId = none := by decide +kernel

theorem witness_OpenAnswers :
    ({ State.reset with fatal := true } : State).fatal = true ∧
    (slave1.fatal = false ∧ slave1.opened = true) ∧
    (State.reset.fatal = false ∧ State.reset.opened = false ∧ State.reset.env.openOk = true) ∧
    ({ State.reset with env := { State.reset.env with openOk := false } } : State).env.openOk = false :=
  ⟨rfl, ⟨rfl, rfl⟩, ⟨rfl, rfl, rfl⟩, rfl⟩

theorem witness_StartEntersSensing :
    ({ slave1 with fatal := true } : State).fatal = true ∧ (State.reset.fatal = false ∧ State.reset.opened = false) ∧
    (slave1.fatal = false ∧ slave1.opened = true ∧ slave1.ctl.cstate ≠ .initial ∧
      slave1.ctl.cstate ≠ .broadcastingStationId) ∧
    ((block .initial none none).fatal = false ∧ (block .initial none none).opened = true ∧
      (block .initial none none).ctl.cstate = .initial) :=
  ⟨rfl, ⟨rfl, rfl⟩, ⟨rfl, rfl, by decide, by decide⟩, ⟨rfl, rfl, rfl⟩⟩

/-- Each field just past its range. -/
theorem witness_HostOperandsAreCheckedForRange :
    hostFrameError ⟨63, 1, 1, 63, 3, 15, List.replicate 15 255⟩ = none ∧
    hostFrameError ⟨64, 0, 1, 0, 0, 0, []⟩ = some .dest ∧ hostFrameError ⟨0, 0, 1, 64, 0, 0, []⟩ = some .src ∧
    hostFrameError ⟨0, 0, 1, 0, 4, 0, []⟩ = some .ctr ∧ hostFrameError ⟨0, 2, 1, 0, 0, 0, []⟩ = some .bc ∧
    hostFrameError ⟨0, 0, 0, 0, 0, 0, []⟩ = some .type ∧ hostFrameError ⟨0, 0, 2, 0, 0, 0, []⟩ = some .type ∧
    hostFrameError ⟨0, 0, 1, 0, 0, 16, []⟩ = some .cmd ∧
    hostFrameError ⟨0, 0, 1, 0, 0, 0, List.replicate 16 0⟩ = some .length ∧
    hostFrameError ⟨0, 0, 1, 0, 0, 0, [256]⟩ = some .payload := by decide

theorem witness_EnqueueAppendsAValidFrame :
    ({ slave1 with fatal := true } : State).fatal = true ∧
    (slave1.fatal = false ∧ hostFrameError ⟨64, 0, 1, 0, 0, 0, []⟩ = some .dest) ∧
    (hostFrameError hostRequest9 = none ∧
      (withCtl (fun c => { c with txq := List.replicate 2 ⟨hd 5#6 9#6, 9#4, []⟩ }) slave1).params.queueDepth =
        some (withCtl (fun c => { c with txq := List.replicate 2 ⟨hd 5#6 9#6, 9#4, []⟩ }) slave1).ctl.txq.length) ∧
    (withCtl (fun c => { c with txq := [⟨hd 5#6 9#6, 9#4, []⟩] }) slave1).params.queueDepth ≠
      some (withCtl (fun c => { c with txq := [⟨hd 5#6 9#6, 9#4, []⟩] }) slave1).ctl.txq.length := by decide

theorem witness_ReadsAnswerAndChangeNothing : slave1.ctl.cstate ≠ .broadcastingStationId := by decide

theorem witness_WaitsAddAndReturnTheirWaiter :
    let s : State := { slave1 with waiters := [⟨.cmd, true⟩, ⟨.tok, false⟩] }
    (s.fatal = false ∧ (withEvent (.waitReturn ⟨.cmd, true⟩ .ok) s).env.schedule = [.waitReturn ⟨.cmd, true⟩ .ok] ∧
      ⟨.cmd, true⟩ ∈ s.waiters) ∧
    (({ s with fatal := true } : State).fatal = true ∧ ⟨.tok, false⟩ ∈ s.waiters) := by decide

theorem witness_CodecOperationsAnswerTheCodec :
    [0xFD#8, 0x15#8].length < 3 ∧ (0x15#8) ≠ tp.marker ∧ typeOf 0x14#8 = false ∧ typeOf 0x15#8 = true := by decide

theorem witness_SensingTimeoutElectsMaster :
    let s := withEvent (.timeout .sense) (withCtl (fun c => { c with timer := some .sense }) (block .sensing none none))
    s.env.schedule = [.timeout .sense] ∧ s.fatal = false ∧ s.ctl.cstate = .sensing ∧ s.ctl.timer = some .sense := by
  decide

/-- Below `N_TIMEOUT = 3` and at it. -/
theorem witness_JoinerTimeoutsAreCounted :
    let s := withEvent (.timeout .resp) (withCtl (fun c => { c with toCount := 1#32 }) (joiner .slaveJoining none))
    let t := withEvent (.timeout .joinWait)
      (withCtl (fun c => { c with toCount := 2#32, timer := some .joinWait }) (block .slaveWaitingToJoin none none))
    (s.env.schedule = [.timeout .resp] ∧ s.fatal = false ∧ s.ctl.timer = some .resp ∧ s.ctl.cstate = .slaveJoining ∧
      ¬ s.params.nTimeout ≤ (s.ctl.toCount + 1#32).toNat) ∧
    (t.env.schedule = [.timeout .joinWait] ∧ t.fatal = false ∧ t.ctl.timer = some .joinWait ∧
      t.ctl.cstate = .slaveWaitingToJoin ∧ t.params.nTimeout ≤ (t.ctl.toCount + 1#32).toNat) := by decide

/-- The reply timer at and below `N_TIMEOUT = 3`, and the join window of a lone master. -/
theorem witness_MasterTimeoutsPassTheToken :
    let s := withEvent (.timeout .resp) (withRoom 5 (dialogue .mWaitDevAck 0b10#64 1#6 2#6))
    let last := withCtl (fun c => { c with toCount := 2#32 }) s
    let lone := withEvent (.timeout .joinWin)
      (withCtl (fun c => { c with timer := some .joinWin }) (master .mSolicit 0#64 0#6))
    (s.env.schedule = [.timeout .resp] ∧ s.fatal = false ∧ s.ctl.timer = some .resp ∧ s.ctl.cstate = .master ∧
      s.ctl.ownId = some 0#6 ∧ s.ctl.successor = some 1#6 ∧ s.ctl.mphase = .mWaitDevAck ∧
      (s.ctl.toCount + 1#32).toNat < s.params.nTimeout) ∧
    s.canSend (tokenOnWire s.params 0#6 1#6) ∧
    last.params.nTimeout ≤ (last.ctl.toCount + 1#32).toNat ∧
    (lone.env.schedule = [.timeout .joinWin] ∧ lone.ctl.timer = some .joinWin ∧ lone.ctl.mphase = .mSolicit ∧
      lone.ctl.successor = lone.ctl.ownId) :=
  ⟨by decide, canSend_exactly (by decide +kernel), by decide, by decide⟩

theorem witness_LostTokenEntersError :
    let s := withEvent (.timeout .token) slave1
    let m := withEvent (.timeout .token)
      (withCtl (fun c => { c with timer := some .token, holdsToken := false }) (master .mIdle 0b10#64 1#6))
    (s.env.schedule = [.timeout .token] ∧ s.fatal = false ∧ s.ctl.timer = some .token ∧ s.ctl.cstate = .slave) ∧
    (m.ctl.timer = some .token ∧ m.ctl.cstate = .master ∧ m.ctl.mphase = .mIdle) := by decide

theorem witness_ErrorExitReentersSensing :
    let s := withEvent .errorExit (block .error none none)
    (s.env.schedule = [.errorExit] ∧ s.fatal = false ∧ s.ctl.cstate = .error ∧ s.ctl.persistFail = false) ∧
    (withCtl (fun c => { c with persistFail := true }) s).ctl.persistFail = true := by decide

/-- A write that fails after the whole image but one byte. -/
theorem witness_TransportFailureStopsTheBlock :
    ((withEvent .rxFail slave1).env.schedule = [.rxFail] ∧ (withEvent .rxFail slave1).running ∧
      slave1.ctl.cstate = .slave) ∧
    ((withRoom 4 slave1).env.writeRoom = some 4 ∧
      4 < (wireImage tp (headerLayout tp (hd 0#6 1#6) false)).length) :=
  ⟨⟨rfl, ⟨rfl, rfl⟩, rfl⟩, ⟨rfl, by decide +kernel⟩⟩

/-- A slave with two queued frames; a tenure sends one (`MAX_TX_PER_TOKEN = 1`). -/
def holding : State :=
  withEvent .tenure (withRoom 11 (withCtl (fun c => { c with
    holdsToken := true, timer := none, txq := List.replicate 2 ⟨hd 5#6 9#6, 9#4, []⟩ }) slave1))

theorem witness_SlaveTenureDrainsAndPasses :
    (holding.env.schedule = [.tenure] ∧ holding.fatal = false ∧ holding.ctl.cstate = .slave ∧
      holding.ctl.holdsToken = true ∧ holding.ctl.ownId = some 1#6 ∧ holding.ctl.successor = some 0#6 ∧ (0#6) ≠ 1#6) ∧
    tenureCount holding.params holding.ctl.txq.length = 1 ∧
    holding.canSend ((holding.ctl.txq.take 1).flatMap (queuedOnWire holding.params 1#6) ++
      tokenOnWire holding.params 1#6 0#6) :=
  ⟨by decide, by decide, canSend_exactly (by decide +kernel)⟩

theorem witness_MasterTenureDrainsAndSolicits :
    let s := withEvent .tenure (withRoom 6 (master .mDrain 0#64 0#6))
    (s.env.schedule = [.tenure] ∧ s.fatal = false ∧ s.ctl.cstate = .master ∧ s.ctl.mphase = .mDrain ∧
      s.ctl.holdsToken = true ∧ s.ctl.ownId = some 0#6) ∧
    tenureCount s.params s.ctl.txq.length = 0 ∧
    s.canSend ((s.ctl.txq.take 0).flatMap (queuedOnWire s.params 0#6) ++
      commandOnWire s.params 0#6 0x1#4 0#6 true []) :=
  ⟨by decide, by decide, canSend_exactly (by decide +kernel)⟩

/-- The slave 1 has the invariant. -/
theorem slave1_inv : slave1.Inv where
  params := by decide
  receiver := receiverInv_of (by decide +kernel)
  queue := ⟨by decide, by intro d _; exact Nat.zero_le d⟩
  role :=
    { reachable := by decide
      assigned := by decide
      ring_id := by decide
      no_id := by decide
      slave_successor := by decide
      peer_set := by decide
      holder := by decide
      master_only := by decide
      known_others := by intro i h; simp [member, slave1, block, State.resetWith, Controller.reset] at h
      pending_free := by intro i h; cases h }
  counts := ⟨by decide, by decide, by decide, by decide, by decide, by decide⟩
  phase := by intro _ h; cases h
  timer := by decide
  closed := by decide
  stopped := by decide
  readPoint := by decide

/-- The schedule is no part of the invariant. -/
theorem slave1_event_inv (e : Event) : (withEvent e slave1).Inv :=
  ⟨slave1_inv.params, slave1_inv.receiver, slave1_inv.queue, slave1_inv.role, slave1_inv.counts, slave1_inv.phase,
    slave1_inv.timer, slave1_inv.closed, slave1_inv.stopped, slave1_inv.readPoint⟩

theorem witness_EveryStepKeepsTheInvariant :
    (withEvent (.timeout .token) slave1).Inv ∧ ∃ t, step (withEvent (.timeout .token) slave1) = .next t :=
  ⟨slave1_event_inv _, _, rfl⟩

theorem witness_ResetStateHasTheInvariant : tp.wellFormed = true := by decide

theorem witness_NoStepFaultsUnderTheInvariant : (withEvent .tenure slave1).Inv := slave1_event_inv _

theorem witness_StoppedBlockIsFrozenUntilReset :
    let s := withEvent (.hostCall { hop := 0x04#8 }) { slave1 with fatal := true }
    s.fatal = true ∧ ¬ s.resetNext ∧ ∃ t, step s = .next t :=
  ⟨rfl, (by rintro ⟨r, rest, h, hr⟩; cases h; exact absurd hr (by decide)), _, rfl⟩

theorem witness_PersistentFailureLastsUntilReset :
    let s := withEvent .errorExit (withCtl (fun c => { c with persistFail := true }) (block .error none none))
    s.ctl.cstate = .error ∧ s.ctl.persistFail = true ∧ ¬ s.resetNext ∧ ∃ t, step s = .next t :=
  ⟨rfl, rfl, (by rintro ⟨r, rest, h, -⟩; cases h), _, rfl⟩

theorem witness_HistoriesOnlyGrow : ∃ t, step (withEvent .tenure (master .mDrain 0#64 0#6)) = .next t := ⟨_, rfl⟩

theorem witness_EveryStateChangeIsLogged :
    let s := withEvent (.timeout .token) slave1
    ¬ s.resetNext ∧ ∃ t, step s = .next t ∧ t.ctl.cstate ≠ s.ctl.cstate :=
  ⟨(by rintro ⟨r, rest, h, -⟩; cases h), _, rfl, by decide +kernel⟩

theorem witness_OnlyStateErrorsEnterError :
    let s := withEvent (.timeout .token) slave1
    s.ctl.cstate ≠ .error ∧ ∃ t, step s = .next t ∧ t.ctl.cstate = .error :=
  ⟨by decide, _, rfl, by decide +kernel⟩

theorem witness_HostReachesTheFsmOnlyByStartAndReset :
    (Instr.enqueueFrame hostRequest9).frame? = none ∧ Instr.enqueueFrame hostRequest9 ≠ .start ∧
    Instr.enqueueFrame hostRequest9 ≠ .reset ∧ ∃ t, exec (.enqueueFrame hostRequest9) slave1 = .next t :=
  ⟨rfl, by decide, by decide, _, rfl⟩

theorem witness_QueueIsFifoAndDisabledStepsLapse :
    (¬ holding.resetNext ∧ ∃ t, step holding = .next t ∧ t.ctl.txq = holding.ctl.txq.drop 1) ∧
    ((withEvent .tenure slave1).env.schedule = [.tenure] ∧ slave1.ctl.cstate ≠ .broadcastingStationId ∧
      slave1.ctl.holdsToken = false) ∧
    ((master .mSolicit 0#64 0#6).ctl.holdsToken = true ∧ (master .mSolicit 0#64 0#6).ctl.mphase ≠ .mDrain ∧
      (master .mSolicit 0#64 0#6).ctl.cstate ≠ .slave) ∧
    ((withEvent (.timeout .resp) slave1).env.schedule = [.timeout .resp] ∧ slave1.ctl.timer ≠ some .resp) :=
  ⟨⟨(by rintro ⟨r, rest, h, -⟩; cases h), next_of_after (by decide +kernel)⟩, ⟨rfl, by decide, rfl⟩,
    ⟨rfl, by decide, by decide⟩, ⟨rfl, by decide⟩⟩

/-- Two stations; station 0 has one byte to be carried. -/
theorem witness_MediumCarriesToEveryOtherStation :
    let sender : Station := ⟨slave1.wireWrite [0xFD#8], 0⟩
    let bus : Bus := [sender, ⟨slave1, 0⟩]
    bus[0]? = some sender ∧ bus[1]? = some ⟨slave1, 0⟩ ∧
    sender.block.out.wireOut[sender.carried]? = some 0xFD#8 := ⟨rfl, rfl, rfl⟩

/-- The ids a joiner of master 0 may be told: 1 to 62. -/
theorem usable_bounds :
    usableId tp (some 0#6) [0x01#8] ∧ usableId tp (some 0#6) [0x3E#8] ∧ ¬ usableId tp (some 0#6) [0x00#8] ∧
    ¬ usableId tp (some 0#6) [0x3F#8] ∧ ¬ usableId tp (some 0#6) [0x40#8] ∧ ¬ usableId tp (some 0#6) [] := by
  have no (b : Byte) (h : ∀ n : StationId, b = n.setWidth 8 → n = 63#6 ∨ n = 0#6) : ¬ usableId tp (some 0#6) [b] := by
    rintro ⟨n, rest, hd, h1, h2⟩
    rcases h n (by injection hd) with rfl | rfl
    · exact h1 rfl
    · exact h2 rfl
  refine ⟨⟨1#6, [], by decide⟩, ⟨62#6, [], by decide⟩, no _ (by decide), no _ (by decide), no _ (by decide), ?_⟩
  rintro ⟨n, rest, h, -⟩
  cases h

/-- What the six clauses share, of a state and a header. -/
def listens (h : Header) (s : State) : Prop :=
  s.running ∧ s.ctl.cstate ≠ .initial ∧ s.ctl.cstate ≠ .broadcastingStationId ∧ s.ctl.cstate ≠ .sensing ∧
  s.ctl.ownId ≠ some h.src

/-- For each kind a wrong state or phase, and for the ids `usable_bounds`: the second request of a window (R243), the
offer to a joiner already joining, the id set twice (R245), the acknowledgement in the next phase, the successor before
the id, the acknowledgement of another station. -/
theorem witness_FramesNoRuleNamesAreOnlyRecorded :
    (listens (hd 0#6 63#6) awaiting ∧ awaiting.ctl.mphase ≠ .mSolicit) ∧
    (listens (hd 63#6 0#6) (joining none) ∧ (joining none).ctl.cstate ≠ .slaveWaitingToJoin) ∧
    (listens (hd 1#6 0#6) (joining (some 1#6)) ∧ (joining (some 1#6)).ctl.ownId ≠ none) ∧
    (listens (hd 0#6 2#6) repointing ∧ repointing.ctl.mphase ≠ .mWaitDevAck) ∧
    (listens (hd 63#6 0#6) (joining none) ∧ (joining none).ctl.ownId = none) ∧
    (listens (hd 0#6 2#6) closing ∧ closing.ctl.pending ≠ some 2#6 ∧ closing.ctl.mphase ≠ .mWaitPredAck) ∧
    (listens (bcast 63#6) offering ∧ (bcast 63#6).bc = true) ∧
    (listens (hd 1#6 63#6) offering ∧ (hd 1#6 63#6).dest ≠ offering.wireId) := by
  simp only [listens, State.running]
  refine ⟨?_, ?_, ?_, ?_, ?_, ?_, ?_, ?_⟩ <;> decide

/-- The block after reset, which stays as it is while nothing happens: a valid and weakly fair run. -/
def idleRun : Run := ⟨fun _ => State.resetWith tp, fun _ => .transport true none, fun _ => []⟩

theorem test_idle_run : idleRun.Valid ∧ idleRun.WeaklyFair := by
  have off {e : Event} {b : Bool} (hb : b = false) : idleRun.fairTo e fun _ => b = true :=
    fun n h => absurd (h n (Nat.le_refl n)) (by simp [hb])
  refine ⟨⟨fun _ => rfl, fun n e h => (by cases h), fun _ => ⟨[], rfl⟩⟩, off rfl, off rfl, fun e n h => ?_,
    fun w ret => off ?_, fun k => off rfl⟩
  · exact absurd (h n (Nat.le_refl n)).1 (by intro h; cases h)
  · cases ret <;> rfl

end Sys2Proof.Tests
end

section
/-! What a step does with the byte that completes a frame (spec/41_frame_reader.md R145, R148, R150). -/

namespace Sys2Proof.Machine

open Sys2Proof

/-! ## The stored bytes as a layout (R120, R150) -/

theorem Receiver.rbuf_toList (r : Receiver) :
    r.rbuf.toList = r.rbuf[0] :: r.rbuf[1] :: r.rbuf[2] :: r.rbuf.toList.drop 3 := by
  rw [← List.drop_zero (l := r.rbuf.toList), List.drop_eq_getElem_cons (by simp),
    List.drop_eq_getElem_cons (by simp), List.drop_eq_getElem_cons (by simp)]
  simp

/-- A payload nibble never exceeds what `RBUF` holds after the three header bytes (R22). -/
@[simp] theorem Receiver.payload_length (r : Receiver) : r.payload.length = r.rlen.toNat := by
  have := r.rlen.isLt
  simp only [Receiver.payload, List.length_take, List.length_drop, Vector.length_toList]
  omega

/-- A complete frame of format H in the buffer: its two header bytes are the layout of the receiver's frame. -/
theorem decodeFrameBytes_rbuf_headerOnly (p : Params) (r : Receiver) (ht : typeOf r.rbuf[0] = false)
    (hc : r.rcount.toNat = 2) :
    decodeFrameBytes p (p.marker :: r.rbuf.toList.take r.rcount.toNat) = .ok r.frame := by
  have hbytes : r.rbuf.toList.take r.rcount.toNat = [r.rbuf[0], r.rbuf[1]] := by
    rw [hc, r.rbuf_toList]; rfl
  simp [hbytes, decodeFrameBytes, decodeHeaderBytes, Receiver.frame, headerOf, ht]

/-- A complete frame of format C in the buffer: header, command byte and as many payload bytes as that byte says are the
layout of the receiver's frame. -/
theorem decodeFrameBytes_rbuf_command (p : Params) (r : Receiver) (ht : typeOf r.rbuf[0] = true)
    (hl : r.rlen = lenOf r.rbuf[2]) (hc : r.rcount.toNat = 3 + r.rlen.toNat) :
    decodeFrameBytes p (p.marker :: r.rbuf.toList.take r.rcount.toNat) = .ok r.frame := by
  have hbytes : r.rbuf.toList.take r.rcount.toNat = r.rbuf[0] :: r.rbuf[1] :: r.rbuf[2] :: r.payload := by
    rw [hc, Nat.add_comm, r.rbuf_toList]; rfl
  have hlen : r.payload.length = (lenOf r.rbuf[2]).toNat := by rw [r.payload_length, hl]
  simp [hbytes, decodeFrameBytes, decodeHeaderBytes, Receiver.frame, headerOf, ht, hlen]

/-- In ReadingChecksum the stored bytes spell the frame that the receiver hands on (R120, R150). -/
theorem ReceiverInv.decode_layout {p : Params} {r : Receiver} (h : ReceiverInv p r)
    (hs : r.rstate = .readingChecksum) :
    decode p (.wire (p.marker :: r.rbuf.toList.take r.rcount.toNat)) = .ok (Instr.ofFrame r.frame) := by
  have hframe : decodeFrameBytes p (p.marker :: r.rbuf.toList.take r.rcount.toNat) = .ok r.frame := by
    obtain ⟨-, ⟨ht, hc⟩ | ⟨ht, hl, hc⟩⟩ := h.checksum hs
    · exact decodeFrameBytes_rbuf_headerOnly p r ht hc
    · exact decodeFrameBytes_rbuf_command p r ht hl hc
  simp only [decode, decodeWire, hframe]

/-! ## The byte that a wire byte delivers (R145) -/

/-- The wire byte `b` completes the un-stuffed byte `v` (R145): plain, or as one of the two escape literals. -/
def completesByte (p : Params) (r : Receiver) (b v : Byte) : Prop :=
  (r.escPending = false ∧ b ≠ p.marker ∧ b ≠ p.esc ∧ v = b) ∨
  (r.escPending = true ∧ b = p.markerLit ∧ v = p.marker) ∨
  (r.escPending = true ∧ b = p.escLit ∧ v = p.esc)

/-- The three constraints of R7 that keep the two escape literals apart from the marker and from each other. -/
theorem Params.literals_of_wellFormed {p : Params} (h : p.wellFormed = true) :
    p.markerLit ≠ p.escLit ∧ p.markerLit ≠ p.marker ∧ p.escLit ≠ p.marker := by
  simp only [Params.wellFormed, Bool.and_eq_true, decide_eq_true_eq] at h
  tauto

theorem receiveByte_of_completesByte {p : Params} {r : Receiver} {b v : Byte} (hp : p.wellFormed = true)
    (hs : r.rstate ≠ .synchronizing) (hb : completesByte p r b v) :
    receiveByte p b r = deliverByte p v { r with escPending := false } := by
  obtain ⟨hne, hm, he⟩ := Params.literals_of_wellFormed hp
  rcases hb with ⟨hesc, hbm, hbe, rfl⟩ | ⟨hesc, rfl, rfl⟩ | ⟨hesc, rfl, rfl⟩
  · have hr : { r with escPending := false } = r := by rw [← hesc]
    simp [receiveByte, hs, hesc, hbm, hbe, hr]
  · simp [receiveByte, hs, hesc, hm, isEscLiteral, escDec]
  · simp [receiveByte, hs, hesc, he, isEscLiteral, escDec, hne.symm]

/-- The last checksum byte, with a checksum that matches, hands the frame on and counts it (R148, R150). -/
theorem checksumByte_of_match {p : Params} {v : Byte} {r : Receiver}
    (hl : (r.rchk ++ [v]).length = p.chkWidth.bytes) (hc : assemble p (r.rchk ++ [v]) = chkFinal p r.rcrc) :
    checksumByte p v r =
      ({ r with rchk := r.rchk ++ [v], framesOk := r.framesOk + 1#32, rstate := .synchronizing },
        .frame r.frame) := by
  rcases checksumByte_cases p v r with ⟨hn, -⟩ | ⟨-, -, h⟩ | ⟨-, hn, -⟩
  · exact absurd hl hn
  · exact h
  · exact absurd hc hn

/-- The wire byte that completes a matching checksum, plain or escaped (R145, R148, R150). -/
theorem receiveByte_of_match {p : Params} {r : Receiver} {b v : Byte} (hp : p.wellFormed = true)
    (hs : r.rstate = .readingChecksum) (hb : completesByte p r b v)
    (hl : (r.rchk ++ [v]).length = p.chkWidth.bytes) (hc : assemble p (r.rchk ++ [v]) = chkFinal p r.rcrc) :
    receiveByte p b r =
      ({ r with escPending := false, rchk := r.rchk ++ [v], framesOk := r.framesOk + 1#32, rstate := .synchronizing },
        .frame r.frame) :=
  calc receiveByte p b r
    _ = deliverByte p v { r with escPending := false } :=
        receiveByte_of_completesByte hp (by simp [hs]) hb
    _ = checksumByte p v { r with escPending := false } := by simp [deliverByte, hs]
    _ = _ := checksumByte_of_match hl hc

/-! ## A byte event in a running block (R15, R140) -/

theorem step_rxByte {s : State} {b : Byte} {rest : List Event} (h : s.env.schedule = .rxByte b :: rest)
    (hrun : s.running) (hi : s.ctl.cstate ≠ .initial) (hb : s.ctl.cstate ≠ .broadcastingStationId) :
    step s = rxByteEvent b { s with env := { s.env with schedule := rest } } := by
  have hact : ({ s with env := { s.env with schedule := rest } } : State).activity = .active :=
    activity_of_running _ hrun hi hb
  rw [step_event s _ rest h]
  simp only [handle, whileActive, hact]

/-- A byte on which the receiver hands a frame on runs that frame's instruction in the same step (R15). -/
theorem rxByteEvent_of_frame {b : Byte} {s : State} {r : Receiver} {f : Frame}
    (h : receiveByte s.params b s.rx = (r, .frame f)) :
    rxByteEvent b s = exec (Instr.ofFrame f) { s with rx := r } := by
  simp only [rxByteEvent, h]

/-- Settles O9: in ReadingChecksum the stored bytes decode to the very frame that the receiver hands on. -/
theorem stepRunsTheReceivedFrame : Obligations.StepRunsTheReceivedFrame := by
  intro s b v rest i hsched hrun hi hbid hp hinv hs hb hl hc hdec
  have hiframe : i = Instr.ofFrame s.rx.frame :=
    Except.ok.inj (hdec.symm.trans (hinv.decode_layout hs))
  rw [step_rxByte hsched hrun hi hbid, hiframe]
  exact rxByteEvent_of_frame (receiveByte_of_match hp hs hb hl hc)

end Sys2Proof.Machine
end

section
/-! What one step can do, said once: where the flow of a controller rule may lead, what every rule leaves as it was, and
the inversion of an event, from which the statements about every step follow by cases. -/

namespace Sys2Proof.Machine

open Sys2Proof

/-! ## Where the flow of a step leads (R302) -/

/-- Every state the flow leads to has the property: going on and ended alike. A fault leads to none. -/
def Flow.Yields (Q : State → Prop) : Flow → Prop
  | .go t => Q t
  | .ended t => Q t
  | .fault _ => True

@[simp] theorem Flow.yields_go (Q : State → Prop) (t : State) : (Flow.go t).Yields Q ↔ Q t := Iff.rfl
@[simp] theorem Flow.yields_ended (Q : State → Prop) (t : State) : (Flow.ended t).Yields Q ↔ Q t := Iff.rfl
@[simp] theorem Flow.yields_fault (Q : State → Prop) (r : Fault) : (Flow.fault r).Yields Q ↔ True := Iff.rfl

theorem Flow.Yields.of_outcome {Q : State → Prop} {m : Flow} {t : State} (hm : m.Yields Q)
    (ht : m.outcome = .next t) : Q t := by
  cases m <;> cases ht <;> exact hm

theorem Flow.Yields.imp {P Q : State → Prop} {m : Flow} (hm : m.Yields P) (h : ∀ t, P t → Q t) : m.Yields Q := by
  cases m with
  | go t => exact h t hm
  | ended t => exact h t hm
  | fault r => trivial

/-- `SEND` and what comes next: the bytes are sent, or the write fails and the step ends. -/
theorem send_bind_yields {Q : State → Prop} {k : State → Flow} (cmd : BitVec 4) (dest : StationId) (bc : Bool)
    (d : List Byte) (s : State) (hgo : ∀ bs, (k (s.sent bs)).Yields Q) (hcut : ∀ room bs, Q (s.cutOff room bs)) :
    ((send cmd dest bc d s).bind k).Yields Q := by
  rcases send_cases cmd dest bc d s with h | ⟨room, -, -, h⟩ <;> rw [h]
  · exact hgo _
  · exact hcut _ _

/-- A token pass: the lone master's retake, the pass, or a write that fails. -/
theorem passToken_yields {Q : State → Prop} (s : State)
    (halone : s.ctl.successor = s.ctl.ownId → Q (takeTokenAsMaster (dropToken s)))
    (hpass : ∀ bs, Q (s.passed.sent bs)) (hcut : ∀ room bs, Q ((dropToken s).cutOff room bs)) :
    (passToken s).Yields Q := by
  rcases passToken_cases s with ⟨hs, h⟩ | ⟨-, -, h⟩ | ⟨-, x, -, h⟩ | ⟨-, x, room, -, -, -, h⟩ <;> rw [h]
  · exact halone hs
  · trivial
  · exact hpass _
  · exact hcut _ _

/-- Error entry clears the timeout count, so it does not matter what the count was (R178, R296). -/
theorem enterError_toCount (cause : ErrorCause) (n : Count) (s : State) :
    enterError cause { s with ctl := { s.ctl with toCount := n } } = enterError cause s := rfl

/-- Nor the checksum failures (R180, R296). -/
theorem enterError_ckCount (cause : ErrorCause) (n : Count) (s : State) :
    enterError cause { s with ctl := { s.ctl with ckCount := n } } = enterError cause s := rfl

theorem protocolTimeout_yields {Q : State → Prop} {k : State → Flow} (s : State)
    (herr : Q (enterError .repeatedTimeouts s))
    (hgo : (s.ctl.toCount + 1#32).toNat < s.params.nTimeout →
      (k { s with ctl := { s.ctl with toCount := s.ctl.toCount + 1#32 } }).Yields Q) :
    (protocolTimeout s k).Yields Q := by
  rw [protocolTimeout_eq]
  split
  · rw [enterError_toCount]
    exact herr
  · next h => exact hgo (Nat.lt_of_not_le h)

/-- The tenure's drain and what comes next: a property that sending and a shorter queue keep holds where the drain goes
on. -/
theorem drainQueue_bind_yields {P Q : State → Prop} {k : State → Flow} (hsent : ∀ s bs, P s → P (s.sent bs))
    (hpop : ∀ (s : State) f rest, s.ctl.txq = f :: rest → P s → P { s with ctl := { s.ctl with txq := rest } })
    (hcut : ∀ s room bs, P s → Q (s.cutOff room bs)) (hgo : ∀ t, P t → (k t).Yields Q)
    (own : Option StationId) (q : List CommandFrame) (budget : Option Nat) (s : State) (hq : s.ctl.txq = q)
    (hs : P s) : ((drainQueue own q budget s).bind k).Yields Q := by
  induction q generalizing budget s with
  | nil => exact hgo s hs
  | cons f rest ih =>
    have hp := hpop s f rest hq hs
    unfold drainQueue
    split
    · exact hgo s hs
    · cases own with
      | none => trivial
      | some me =>
        rcases transmit_cases (commandLayout s.params { f with hdr := { f.hdr with src := me } })
          { s with ctl := { s.ctl with txq := rest } } with ⟨-, h⟩ | ⟨room, -, -, h⟩ <;> simp only [h]
        · exact ih _ _ rfl (hsent _ _ hp)
        · exact hcut _ _ _ hp

/-- The rule of a frame is one of the eight of the kinds with an effect, or does nothing (R182). -/
theorem kindRule_yields {Q : State → Prop} (f : Frame) (s : State)
    (htoken : ∀ h, (tokenRule h s).Yields Q) (hsolicit : ∀ h, (solicitRule h s).Yields Q)
    (hget : ∀ h, (getAddressRule h s).Yields Q) (hoffered : ∀ h, (addressOfferedRule h s).Yields Q)
    (hset : ∀ h d, (setAddressRule h d s).Yields Q) (hdone : ∀ h, (addressSetRule h s).Yields Q)
    (hsucc : ∀ h d, (setSuccessorRule h d s).Yields Q) (hlinked : ∀ h, (successorSetRule h s).Yields Q) (hnone : Q s) :
    (kindRule f s).Yields Q := by
  cases f with
  | headerOnly h => exact htoken h
  | command f =>
    generalize hk : kindRule (.command f) = rule
    simp only [kindRule] at hk
    split at hk <;> subst hk
    · exact hsolicit _
    · exact hget _
    · exact hoffered _
    · exact hset _ _
    · exact hdone _
    · exact hsucc _ _
    · exact hlinked _
    · exact hnone

/-! ## What a controller rule leaves as it was -/

/-- No rule of the controller but the drain writes these, and to the histories it only appends (R47, R50). -/
structure ControllerFrame (s t : State) : Prop where
  params : t.params = s.params
  rx : t.rx = s.rx
  opened : t.opened = s.opened
  txq : t.ctl.txq = s.ctl.txq
  rxRead : t.env.rxRead = s.env.rxRead
  wireOut : s.out.wireOut <+: t.out.wireOut
  rxOut : s.out.rxOut <+: t.out.rxOut
  logOut : s.out.logOut <+: t.out.logOut
  replies : t.out.replies = s.out.replies

namespace ControllerFrame

theorem refl (s : State) : ControllerFrame s s := by
  constructor <;> simp

theorem trans {a b c : State} (h : ControllerFrame a b) (k : ControllerFrame b c) : ControllerFrame a c where
  params := k.params.trans h.params
  rx := k.rx.trans h.rx
  opened := k.opened.trans h.opened
  txq := k.txq.trans h.txq
  rxRead := k.rxRead.trans h.rxRead
  wireOut := h.wireOut.trans k.wireOut
  rxOut := h.rxOut.trans k.rxOut
  logOut := h.logOut.trans k.logOut
  replies := k.replies.trans h.replies

/-- Writing controller registers other than the queue, and firing waiters. -/
theorem of_ctl {s t : State} (h : t = { s with ctl := t.ctl, waiters := t.waiters }) (hq : t.ctl.txq = s.ctl.txq) :
    ControllerFrame s t := by
  refine ⟨?_, ?_, ?_, hq, ?_, ?_, ?_, ?_, ?_⟩ <;> rw [h]

theorem setCState (c : CState) (w : LogCause) (s : State) : ControllerFrame s (s.setCState c w) := by
  constructor <;> simp

theorem recordFrame (f : Frame) (s : State) : ControllerFrame s (recordFrame f s) := by
  constructor <;> simp

theorem sent (bs : List Byte) (s : State) : ControllerFrame s (s.sent bs) := by
  constructor <;> simp

theorem transportError (k : TransportErrorKind) (s : State) : ControllerFrame s (transportError k s) := by
  constructor <;> simp

theorem cutOff (room : Nat) (bs : List Byte) (s : State) : ControllerFrame s (s.cutOff room bs) := by
  constructor <;> simp [State.cutOff]

theorem enterError (cause : ErrorCause) (s : State) : ControllerFrame s (enterError cause s) := by
  constructor <;> simp

theorem enterSensing (w : LogCause) (s : State) : ControllerFrame s (enterSensing w s) := by
  constructor <;> simp

theorem selfElect (s : State) : ControllerFrame s (selfElect s) := by
  constructor <;> simp

theorem passed (s : State) : ControllerFrame s s.passed :=
  of_ctl rfl (by unfold State.passed; split <;> rfl)

theorem checksumFail (s : State) : ControllerFrame s (checksumFail s) := by
  have counted (n : Count) : ControllerFrame s { s with ctl := { s.ctl with ckCount := n } } := of_ctl rfl rfl
  unfold Machine.checksumFail
  split
  case h_7 => exact refl s
  all_goals
    simp only
    split
    · exact (counted _).trans (enterError _ _)
    · exact counted _

/-! ### The rules of the controller -/

/-- A rule that first writes the state. -/
theorem after {s t : State} {m : Flow} (hm : m.Yields (ControllerFrame t)) (h : ControllerFrame s t) :
    m.Yields (ControllerFrame s) :=
  hm.imp fun _ => h.trans

theorem send_bind {k : State → Flow} (cmd : BitVec 4) (dest : StationId) (bc : Bool) (d : List Byte) (s : State)
    (hk : ∀ t, (k t).Yields (ControllerFrame t)) : ((send cmd dest bc d s).bind k).Yields (ControllerFrame s) :=
  send_bind_yields cmd dest bc d s (fun bs => after (hk _) (sent bs s)) fun room bs => cutOff room bs s

theorem passToken (s : State) : (passToken s).Yields (ControllerFrame s) :=
  passToken_yields s (fun _ => of_ctl rfl rfl) (fun bs => (passed s).trans (sent bs _))
    fun room bs => (of_ctl (t := dropToken s) rfl rfl).trans (cutOff room bs _)

theorem protocolTimeout {k : State → Flow} (s : State) (hk : ∀ t, (k t).Yields (ControllerFrame t)) :
    (protocolTimeout s k).Yields (ControllerFrame s) :=
  protocolTimeout_yields s (enterError _ s) fun _ => after (hk _) (of_ctl rfl rfl)

theorem answerSolicit (h : Header) (s : State) : (answerSolicit h s).Yields (ControllerFrame s) := by
  unfold Machine.answerSolicit
  split
  · refine after (send_bind _ _ _ _ _ fun t => ?_) (of_ctl rfl rfl)
    exact of_ctl rfl rfl
  · exact refl s

theorem sensingTraffic (f : Frame) (s : State) : (sensingTraffic f s).Yields (ControllerFrame s) := by
  unfold Machine.sensingTraffic
  refine after (t := s.setCState .slaveWaitingToJoin .r185) ?_ (setCState _ _ s)
  simp only
  split
  · exact after (answerSolicit _ _) (of_ctl rfl rfl)
  · exact of_ctl rfl rfl

theorem tokenRule (h : Header) (s : State) : (tokenRule h s).Yields (ControllerFrame s) := by
  unfold Machine.tokenRule
  split
  · split
    · split
      · exact of_ctl rfl rfl
      · exact enterError _ s
    · split
      · exact enterError _ s
      · exact of_ctl rfl rfl
    · exact after (after (passToken _) (setCState _ _ _)) (of_ctl rfl rfl)
    · exact refl s
  · exact refl s

theorem solicitRule (h : Header) (s : State) : (solicitRule h s).Yields (ControllerFrame s) := by
  unfold Machine.solicitRule
  split
  · exact answerSolicit h s
  · exact enterError _ s
  · exact refl s

theorem getAddressRule (h : Header) (s : State) : (getAddressRule h s).Yields (ControllerFrame s) := by
  unfold Machine.getAddressRule
  split
  · split
    · exact refl s
    · refine after (send_bind _ _ _ _ _ fun t => send_bind _ _ _ _ _ fun u => ?_) (of_ctl rfl rfl)
      exact of_ctl rfl rfl
  · exact refl s

theorem addressOfferedRule (h : Header) (s : State) : (addressOfferedRule h s).Yields (ControllerFrame s) := by
  unfold Machine.addressOfferedRule
  split
  · exact (setCState .slaveJoining .r244 s).trans (of_ctl rfl rfl)
  · exact refl s

theorem setAddressRule (h : Header) (d : List Byte) (s : State) :
    (setAddressRule h d s).Yields (ControllerFrame s) := by
  unfold Machine.setAddressRule
  split
  · exact refl s
  · split
    · refine after (send_bind _ _ _ _ _ fun t => ?_) (of_ctl rfl rfl)
      exact of_ctl rfl rfl
    · exact refl s

theorem addressSetRule (h : Header) (s : State) : (addressSetRule h s).Yields (ControllerFrame s) := by
  unfold Machine.addressSetRule
  split
  · split
    · trivial
    · refine send_bind _ _ _ _ _ fun t => ?_
      exact of_ctl rfl rfl
  · exact refl s

theorem setSuccessorRule (h : Header) (d : List Byte) (s : State) :
    (setSuccessorRule h d s).Yields (ControllerFrame s) := by
  unfold Machine.setSuccessorRule
  split
  · exact refl s
  · split
    · refine after (send_bind _ _ _ _ _ fun t => ?_) (of_ctl rfl rfl)
      simp only
      split
      · exact (of_ctl rfl rfl).trans ((setCState _ _ _).trans (of_ctl rfl rfl))
      · exact of_ctl rfl rfl
    · exact refl s

theorem successorSetRule (h : Header) (s : State) : (successorSetRule h s).Yields (ControllerFrame s) := by
  unfold Machine.successorSetRule
  split
  · split
    · split
      · split
        · trivial
        · simp only
          split
          · exact after (passToken _) (of_ctl rfl rfl)
          · refine after (send_bind _ _ _ _ _ fun u => ?_) (of_ctl rfl rfl)
            exact of_ctl rfl rfl
      · exact refl s
    · split
      · exact after (passToken _) (of_ctl rfl rfl)
      · exact refl s
    · exact refl s
  · exact refl s

theorem kindRule (f : Frame) (s : State) : (kindRule f s).Yields (ControllerFrame s) :=
  kindRule_yields f s (tokenRule · s) (solicitRule · s) (getAddressRule · s) (addressOfferedRule · s)
    (setAddressRule · · s) (addressSetRule · s) (setSuccessorRule · · s) (successorSetRule · s) (refl s)

theorem dispatchFrame (f : Frame) (s : State) :
    (dispatchFrame f (Machine.kindRule f) s).Yields (ControllerFrame s) := by
  rcases dispatchFrame_cases f (Machine.kindRule f) s with ⟨-, h⟩ | ⟨-, h⟩ | ⟨-, -, -, h⟩ | ⟨-, -, -, h⟩ <;> rw [h]
  · exact refl s
  · exact sensingTraffic f s
  · exact enterError _ s
  · exact kindRule f s

/-- A frame that the controller has recorded and handled (R179). -/
theorem received {f : Frame} {s t : State}
    (h : (Machine.dispatchFrame f (Machine.kindRule f) (Machine.recordFrame f s)).outcome = .next t) :
    ControllerFrame s t :=
  (recordFrame f s).trans ((dispatchFrame f _).of_outcome h)

theorem timeoutRule (k : TimerKind) (s : State) : (timeoutRule k s).Yields (ControllerFrame s) := by
  have rearmed (k : TimerKind) (t : State) : (Flow.go (t.arm k)).Yields (ControllerFrame t) := of_ctl rfl rfl
  unfold Machine.timeoutRule
  split
  · trivial
  · exact selfElect s
  · exact protocolTimeout s (rearmed .joinWait)
  · exact after (protocolTimeout _ (rearmed .joinWait)) (of_ctl rfl rfl)
  · exact protocolTimeout s (rearmed .resp)
  · exact enterError _ s
  · exact enterError _ s
  · split
    · exact enterError _ s
    · exact refl s
  · split
    · exact passToken s
    · exact refl s
  · have habandon : (abandonJoin s).Yields (ControllerFrame s) :=
      after (protocolTimeout _ passToken) (of_ctl rfl rfl)
    split
    · exact habandon
    · exact habandon
    · exact habandon
    · exact refl s
  · exact refl s

theorem timeoutStep (k : TimerKind) (s : State) : (timeoutStep k s).Yields (ControllerFrame s) :=
  after (timeoutRule k s.disarm) (of_ctl rfl rfl)

end ControllerFrame

/-- The block with its first `n` queued frames gone. -/
def State.pop (n : Nat) (s : State) : State := { s with ctl := { s.ctl with txq := s.ctl.txq.drop n } }

/-- The Tenure step takes frames from the head of the queue, and otherwise writes what a controller rule may (R187). -/
theorem tenureStep_frame (s : State) : (tenureStep s).Yields fun t => ∃ n, ControllerFrame (s.pop n) t := by
  refine drainQueue_bind_yields (P := fun t => ∃ n, ControllerFrame (s.pop n) t) ?_ ?_ ?_ ?_ _ _ _ s rfl
    ⟨0, ControllerFrame.refl s⟩
  · rintro t bs ⟨n, h⟩
    exact ⟨n, h.trans (.sent bs t)⟩
  · rintro t f rest hq ⟨n, h⟩
    have hdrop : rest = s.ctl.txq.drop (n + 1) := by
      rw [← List.tail_drop, ← (show t.ctl.txq = s.ctl.txq.drop n from h.txq), hq, List.tail_cons]
    exact ⟨n + 1, { h with txq := hdrop }⟩
  · rintro t room bs ⟨n, h⟩
    exact ⟨n, h.trans (.cutOff room bs t)⟩
  · rintro t ⟨n, h⟩
    split
    · have hsolicit : (masterSolicit t).Yields (ControllerFrame t) := by
        refine ControllerFrame.send_bind _ _ _ _ t fun u => ?_
        exact ControllerFrame.of_ctl rfl rfl
      exact hsolicit.imp fun u hu => ⟨n, h.trans hu⟩
    · exact (ControllerFrame.passToken t).imp fun u hu => ⟨n, h.trans hu⟩

/-! ## What a host operation can do (R305) -/

/-- The effects a host operation other than `reset` can have: it answers and changes nothing, or it does the one thing
its rule names, in a block that has not stopped. -/
inductive HostEffect (s : State) : State → Prop
  | answered (hop : Byte) (status : HostStatus) (value : HostValue) : HostEffect s (s.reply hop status value)
  | opened (hf : s.fatal = false) : HostEffect s ({ s with opened := true }.reply 0x00#8 .ok .none)
  | started (hf : s.fatal = false) (ho : s.opened = true) (hc : s.ctl.cstate = .initial) :
    HostEffect s ((enterSensing .start s).reply 0x01#8 .ok .none)
  | enqueued (hop : Byte) (f : HostFrame) (hf : s.fatal = false) (hv : hostFrameError f = none)
    (hd : s.params.queueDepth ≠ some s.ctl.txq.length) :
    HostEffect s ({ s with ctl := { s.ctl with txq := s.ctl.txq ++ [frameOfHost f] } }.reply hop .ok .none)
  | waits (k : WaiterKind) (hf : s.fatal = false) : HostEffect s { s with waiters := s.waiters ++ [⟨k, false⟩] }

namespace HostEffect

theorem openDevice (d : List Byte) {s t : State} (h : execOpenDevice d s = .next t) : HostEffect s t := by
  unfold execOpenDevice at h
  split at h
  · cases h; exact answered _ _ _
  · next hf =>
    split at h
    · cases h; exact answered _ _ _
    · split at h
      · cases h; exact opened (by simpa using hf)
      · cases h; exact answered _ _ _

/-- An operation that reads `CSTATE` does what it does in the states that may be found (R171). -/
theorem readingCState {k : State → Result} {s t : State} (hk : k s = .next t → HostEffect s t)
    (h : readingCState k s = .next t) : HostEffect s t := by
  unfold Machine.readingCState at h
  split at h
  · cases h
  · exact hk h

/-- A read answers and changes nothing (R265, R266, R274). -/
theorem answers {hop : Byte} {value : State → HostValue} {s t : State}
    (h : Machine.readingCState (fun s => .next (s.reply hop .ok (value s))) s = .next t) : HostEffect s t :=
  readingCState (fun hk => by cases hk; exact answered _ _ _) h

theorem start {s t : State} (h : execStart s = .next t) : HostEffect s t := by
  unfold execStart at h
  split at h
  · cases h; exact answered _ _ _
  · next hf =>
    split at h
    · cases h; exact answered _ _ _
    · next ho =>
      refine readingCState (fun hk => ?_) h
      split at hk
      · next hc => cases hk; exact started (by simpa using hf) (by simpa using ho) hc
      · cases hk; exact answered _ _ _

theorem enqueue (hop : Byte) (f : HostFrame) (s : State) : HostEffect s (enqueue hop f s) := by
  unfold Machine.enqueue
  split
  · exact answered _ _ _
  · next hf =>
    split
    · exact answered _ _ _
    · next hv =>
      split
      · exact answered _ _ _
      · next hd => exact enqueued hop f (by simpa using hf) hv hd

theorem callWait (hop : Byte) (k : WaiterKind) (s : State) : HostEffect s (callWait hop k s) := by
  unfold Machine.callWait
  split
  · exact answered _ _ _
  · next hf => exact waits k (by simpa using hf)

theorem replyEncoded (hop : Byte) (r : Except EncodeField (List Byte)) (s : State) :
    HostEffect s (replyEncoded hop r s) := by
  cases r <;> exact answered _ _ _

/-- Every host operation but `reset` has one of these effects. -/
theorem of_exec {i : Instr} {s t : State} (hi : i.frame? = none) (hr : i ≠ .reset) (h : exec i s = .next t) :
    HostEffect s t := by
  cases i
  case openDevice d => exact openDevice d h
  case start => exact start h
  case enqueueFrame => cases h; exact enqueue _ _ s
  case sendFrame => cases h; exact enqueue _ _ s
  case getState => exact answers (show execGetState s = .next t from h)
  case isReady => exact answers (show execIsReady s = .next t from h)
  case waitForCommandFrame => cases h; exact callWait _ _ s
  case readCounters => cases h; exact answered _ _ _
  case waitForToken => cases h; exact callWait _ _ s
  case encodeHeader => cases h; exact replyEncoded _ _ s
  case encodeCommandFrame => cases h; exact replyEncoded _ _ s
  case decodeHeader =>
    simp only [exec, execDecodeHeader] at h
    split at h <;> cases h <;> exact answered _ _ _
  case decodeFrame =>
    simp only [exec, execDecodeFrame] at h
    split at h <;> cases h <;> exact answered _ _ _
  case readStatus => exact answers (show execReadStatus s = .next t from h)
  case reset => exact absurd rfl hr
  all_goals cases hi

end HostEffect

/-- The block after the host's `reset` (R320): the reset registers, and what `reset` keeps. -/
def State.afterReset (s : State) : State :=
  { State.resetWith s.params with out := s.out, env := s.env }.reply 0x0E#8 .ok .none

/-- A request decodes to host operations only, and to `reset` by its code alone (R276). -/
theorem decodeHost_ok {r : HostRequest} {i : Instr} (h : decodeHost r = .ok i) :
    i.frame? = none ∧ (i = .reset → r.hop = 0x0E#8) := by
  unfold decodeHost at h
  split at h <;> cases h <;> refine ⟨rfl, fun he => ?_⟩
  case h_15 hop => exact BitVec.eq_of_toNat_eq hop
  all_goals cases he

/-! ## What an event can do (R140, R170, R275) -/

/-- The instruction of a frame is the receipt of that frame (R94). -/
theorem frame?_ofFrame (f : Frame) : (Instr.ofFrame f).frame? = some f := by
  cases f with
  | headerOnly h => rfl
  | command f =>
    obtain ⟨hdr, cmd, d⟩ := f
    have hcmd (n : Nat) (hn : cmd.toNat = n) : cmd = BitVec.ofNat 4 n := by rw [← hn, BitVec.ofNat_toNat]; simp
    simp only [Instr.ofFrame, Instr.ofCommand]
    split
    case h_16 =>
      have : cmd.toNat = 15 := by
        have := cmd.isLt
        grind
      rw [hcmd 15 this]; rfl
    all_goals next hn => rw [hcmd _ hn]; rfl

theorem running_of_active {s : State} (h : s.activity = .active) :
    s.running ∧ s.ctl.cstate ≠ .initial ∧ s.ctl.cstate ≠ .broadcastingStationId := by
  unfold State.activity at h
  split at h
  · cases h
  · next hr =>
    refine ⟨by simpa [State.running] using hr, ?_, ?_⟩ <;> intro hc <;> simp [hc] at h

theorem tenureEnabled_iff (s : State) : s.tenureEnabled = true ↔
    s.fatal = false ∧ s.ctl.holdsToken = true ∧
      (s.ctl.cstate = .master ∧ s.ctl.mphase = .mDrain ∨ s.ctl.cstate = .slave) := by
  simp [State.tenureEnabled, and_assoc]

theorem timeoutEnabled_iff (k : TimerKind) (s : State) :
    s.timeoutEnabled k = true ↔ s.fatal = false ∧ s.ctl.timer = some k := by
  simp [State.timeoutEnabled]

theorem errorExitEnabled_iff (s : State) : s.errorExitEnabled = true ↔
    s.fatal = false ∧ s.ctl.cstate = .error ∧ s.ctl.persistFail = false := by
  simp [State.errorExitEnabled, and_assoc]

/-- What an event does to a block: it lapses, or it is enabled and its rule answers the next state. -/
inductive Handled (s : State) : Event → State → Prop
  | lapsed (e : Event) : Handled s e s
  | byteStored {b : Byte} {r : Receiver} (ha : s.activity = .active) (hb : receiveByte s.params b s.rx = (r, .quiet)) :
    Handled s (.rxByte b) { s with rx := r }
  | frameReceived {b : Byte} {r : Receiver} {f : Frame} {t : State} (ha : s.activity = .active)
    (hb : receiveByte s.params b s.rx = (r, .frame f))
    (ht : (dispatchFrame f (kindRule f) (recordFrame f { s with rx := r })).outcome = .next t) :
    Handled s (.rxByte b) t
  | frameSpoilt {b : Byte} {r : Receiver} (ha : s.activity = .active)
    (hb : receiveByte s.params b s.rx = (r, .checksumFail)) : Handled s (.rxByte b) (checksumFail { s with rx := r })
  | lineIdle (ha : s.activity = .active) : Handled s .rxIdle { s with rx := receiveIdle s.rx }
  | readFailed (ha : s.activity = .active) : Handled s .rxFail (transportError .read s)
  | expired {k : TimerKind} {t : State} (he : s.timeoutEnabled k = true) (ht : (timeoutStep k s).outcome = .next t) :
    Handled s (.timeout k) t
  | tenure {t : State} (he : s.tenureEnabled = true) (ht : (tenureStep s).outcome = .next t) : Handled s .tenure t
  | errorExit (he : s.errorExitEnabled = true) : Handled s .errorExit (errorExit s)
  | hostReset {r : HostRequest} (hr : r.hop = 0x0E#8) : Handled s (.hostCall r) s.afterReset
  | hostEffect (r : HostRequest) {t : State} (h : HostEffect s t) : Handled s (.hostCall r) t
  | waitReturned (w : Waiter) (ret : WaitReturn) : Handled s (.waitReturn w ret) (returnWait w ret s)
  | frameTaken (ha : s.env.rxRead < s.out.rxOut.length) :
    Handled s .takeFrame { s with env := { s.env with rxRead := s.env.rxRead + 1 } }
  | transportChanged (openOk : Bool) (writeRoom : Option Nat) :
    Handled s (.transport openOk writeRoom) { s with env := { s.env with openOk := openOk, writeRoom := writeRoom } }

namespace Handled

theorem of_whileActive {k : State → Result} {e : Event} {s t : State}
    (hk : s.activity = .active → k s = .next t → Handled s e t) (h : whileActive k s = .next t) : Handled s e t := by
  unfold whileActive at h
  split at h
  · cases h; exact lapsed e
  · cases h
  · next ha => exact hk ha h

theorem of_controllerStep {enabled : State → Bool} {k : State → Flow} {e : Event} {s t : State}
    (hk : enabled s = true → (k s).outcome = .next t → Handled s e t)
    (h : controllerStep enabled k s = .next t) : Handled s e t := by
  rcases controllerStep_cases enabled k s with ⟨-, hc⟩ | ⟨-, -, hc⟩ | ⟨-, -, -, hc⟩ | ⟨-, -, he, hc⟩ <;> rw [hc] at h
  · cases h; exact lapsed e
  · cases h
  · cases h; exact lapsed e
  · exact hk he h

theorem of_rxByteEvent {b : Byte} {s t : State} (ha : s.activity = .active) (h : rxByteEvent b s = .next t) :
    Handled s (.rxByte b) t := by
  unfold rxByteEvent at h
  split at h
  · next r hb => cases h; exact byteStored ha hb
  · next r f hb =>
    rw [exec_of_frame _ f _ (frame?_ofFrame f)] at h
    have ha' : ({ s with rx := r } : State).activity = .active := ha
    simp only [deliver, ha'] at h
    exact frameReceived ha hb h
  · next r hb => cases h; exact frameSpoilt ha hb

theorem of_hostCallEvent {r : HostRequest} {s t : State} (h : hostCallEvent r s = .next t) :
    Handled s (.hostCall r) t := by
  unfold hostCallEvent at h
  split at h
  · next i hi =>
    obtain ⟨hframe, hreset⟩ := decodeHost_ok hi
    by_cases hr : i = .reset
    · subst hr
      cases h
      exact hostReset (hreset rfl)
    · exact hostEffect r (.of_exec hframe hr h)
  · cases h
    exact hostEffect r (.answered _ _ _)

/-- Every event that answers a next state is one of these. -/
theorem of_handle {e : Event} {s t : State} (h : handle e s = .next t) : Handled s e t := by
  cases e with
  | rxByte b => exact of_whileActive of_rxByteEvent h
  | rxIdle =>
    refine of_whileActive (k := fun s => .next { s with rx := receiveIdle s.rx }) (fun ha hk => ?_) h
    cases hk
    exact lineIdle ha
  | rxFail =>
    refine of_whileActive (k := fun s => .next (transportError .read s)) (fun ha hk => ?_) h
    cases hk
    exact readFailed ha
  | timeout k => exact of_controllerStep expired h
  | tenure => exact of_controllerStep tenure h
  | errorExit =>
    refine of_controllerStep (k := fun s => .go (Machine.errorExit s)) (fun he hk => ?_) h
    cases hk
    exact errorExit he
  | hostCall r => exact of_hostCallEvent h
  | waitReturn w ret =>
    simp only [handle] at h
    split at h <;> cases h
    · exact waitReturned w ret
    · exact lapsed _
  | takeFrame =>
    simp only [handle] at h
    split at h <;> cases h
    · next ha => exact frameTaken (by simpa [State.rxAvailable] using ha)
    · exact lapsed _
  | transport openOk writeRoom => cases h; exact transportChanged openOk writeRoom

end Handled

/-- The block with this schedule. -/
def State.withSchedule (s : State) (events : List Event) : State :=
  { s with env := { s.env with schedule := events } }

/-- Everything a step can do: nothing, or what the next event does. -/
theorem handled_of_step {s t : State} (h : step s = .next t) :
    t = s ∨ ∃ e rest, s.env.schedule = e :: rest ∧ Handled (s.withSchedule rest) e t := by
  cases hs : s.env.schedule with
  | nil => rw [step_idle s hs] at h; cases h; exact .inl rfl
  | cons e rest =>
    rw [step_event s e rest hs] at h
    exact .inr ⟨e, rest, rfl, .of_handle h⟩

end Sys2Proof.Machine
end

section
/-! What every step keeps: the parameters and the histories, a stopped block's registers, and the order of the queue. -/

namespace Sys2Proof.Machine

open Sys2Proof

/-! ## The histories only grow (R47, R50) -/

/-- The parameters stay and every output stream keeps its old contents in front. -/
structure Grows (s t : State) : Prop where
  params : t.params = s.params
  wireOut : s.out.wireOut <+: t.out.wireOut
  rxOut : s.out.rxOut <+: t.out.rxOut
  logOut : s.out.logOut <+: t.out.logOut
  replies : s.out.replies <+: t.out.replies

namespace Grows

theorem of_frame {s t : State} (h : ControllerFrame s t) : Grows s t where
  params := h.params
  wireOut := h.wireOut
  rxOut := h.rxOut
  logOut := h.logOut
  replies := by rw [h.replies]

theorem of_hostEffect {s t : State} (h : HostEffect s t) : Grows s t := by
  cases h <;> constructor <;> simp

/-- Every event keeps the parameters and extends the histories, `reset` too (R320). -/
theorem of_handled {s t : State} {e : Event} (h : Handled s e t) : Grows s t := by
  cases h
  case frameReceived ht => exact { of_frame (ControllerFrame.received ht) with }
  case frameSpoilt r ha hb => exact { of_frame (ControllerFrame.checksumFail { s with rx := r }) with }
  case readFailed => exact .of_frame (.transportError _ s)
  case expired ht => exact .of_frame ((ControllerFrame.timeoutStep _ s).of_outcome ht)
  case tenure ht =>
    obtain ⟨n, hn⟩ := (tenureStep_frame s).of_outcome ht
    exact { of_frame hn with }
  case errorExit => exact .of_frame (.enterSensing _ s)
  case hostEffect h => exact of_hostEffect h
  all_goals constructor <;> simp [State.afterReset, State.resetWith, returnWait]

end Grows

/-- Settles O54: each event's rule writes no parameter and only appends to the output streams. -/
theorem historiesOnlyGrow : Obligations.HistoriesOnlyGrow := by
  intro s t h
  have hgrows : Grows s t := by
    rcases handled_of_step h with rfl | ⟨e, rest, -, he⟩
    · exact .of_frame (.refl t)
    · exact { Grows.of_handled he with }
  exact ⟨hgrows.params, hgrows.wireOut, hgrows.rxOut, hgrows.logOut, hgrows.replies⟩

/-! ## A stopped block (R39, R277, R293) -/

/-- The registers, the parameters and the spec's three output streams are as they were. -/
structure Frozen (s t : State) : Prop where
  rx : t.rx = s.rx
  ctl : t.ctl = s.ctl
  fatal : t.fatal = s.fatal
  opened : t.opened = s.opened
  params : t.params = s.params
  wireOut : t.out.wireOut = s.out.wireOut
  rxOut : t.out.rxOut = s.out.rxOut
  logOut : t.out.logOut = s.out.logOut

namespace Frozen

theorem refl (s : State) : Frozen s s := ⟨rfl, rfl, rfl, rfl, rfl, rfl, rfl, rfl⟩

/-- In a stopped block the receiver is inactive, no controller step and no timer is enabled, and the host operations
only answer: what is left are answers, returns and the environment. -/
theorem of_handled {s t : State} {e : Event} (hf : s.fatal = true) (hr : ∀ r, e = .hostCall r → r.hop ≠ 0x0E#8)
    (h : Handled s e t) : Frozen s t := by
  have live {P : Prop} (hlive : s.fatal = false) : P := by simp [hf] at hlive
  have active {P : Prop} (ha : s.activity = .active) : P := live (running_of_active ha).1.1
  cases h
  case lapsed => exact refl s
  case byteStored ha hb => exact active ha
  case frameReceived ha hb ht => exact active ha
  case frameSpoilt ha hb => exact active ha
  case lineIdle ha => exact active ha
  case readFailed ha => exact active ha
  case expired he ht => exact live ((timeoutEnabled_iff _ s).1 he).1
  case tenure he ht => exact live ((tenureEnabled_iff s).1 he).1
  case errorExit he => exact live ((errorExitEnabled_iff s).1 he).1
  case hostReset r hop => exact absurd hop (hr r rfl)
  case hostEffect h =>
    cases h
    case answered => constructor <;> simp
    case opened hlive => exact live hlive
    case started hlive _ _ => exact live hlive
    case enqueued hlive _ _ => exact live hlive
    case waits hlive => exact live hlive
  case waitReturned => constructor <;> simp [returnWait]
  case frameTaken => exact { refl s with }
  case transportChanged => exact { refl s with }

end Frozen

/-- The next event of a block whose next event is not the host's `reset` (R320). -/
theorem hop_of_not_resetNext {s : State} {e : Event} {rest : List Event} (hs : s.env.schedule = e :: rest)
    (h : ¬ s.resetNext) (r : HostRequest) (he : e = .hostCall r) : r.hop ≠ 0x0E#8 :=
  fun hop => h ⟨r, rest, he ▸ hs, hop⟩

/-- Settles O52: with `FATAL` set no event but `reset` is enabled that writes a register or one of the three streams. -/
theorem stoppedBlockIsFrozenUntilReset : Obligations.StoppedBlockIsFrozenUntilReset := by
  intro s t hf hr h
  have hfrozen : Frozen s t := by
    rcases handled_of_step h with rfl | ⟨e, rest, hs, he⟩
    · exact .refl t
    · exact { Frozen.of_handled (s := s.withSchedule rest) hf (hop_of_not_resetNext hs hr) he with }
  exact ⟨hfrozen.rx, hfrozen.ctl, hfrozen.fatal.trans hf, hfrozen.opened, hfrozen.params, hfrozen.wireOut,
    hfrozen.rxOut, hfrozen.logOut⟩

/-! ## The queue (R43, R73, R200) -/

/-- What an event other than `reset` does to the queue: nothing, one frame at the tail, or a tenure's drain. -/
theorem txq_of_handled {s t : State} {e : Event} (hr : ∀ r, e = .hostCall r → r.hop ≠ 0x0E#8) (h : Handled s e t) :
    t.ctl.txq = s.ctl.txq ∨ (∃ g, t.ctl.txq = s.ctl.txq ++ [g]) ∨
      (e = .tenure ∧ s.tenureEnabled = true ∧ ∃ n, t.ctl.txq = s.ctl.txq.drop n) := by
  cases h
  case frameReceived ht => exact .inl (ControllerFrame.received ht).txq
  case frameSpoilt => exact .inl (ControllerFrame.checksumFail _).txq
  case expired ht => exact .inl ((ControllerFrame.timeoutStep _ s).of_outcome ht).txq
  case tenure he ht =>
    obtain ⟨n, hn⟩ := (tenureStep_frame s).of_outcome ht
    exact .inr (.inr ⟨rfl, he, n, hn.txq⟩)
  case hostReset r hop => exact absurd hop (hr r rfl)
  case hostEffect h =>
    cases h
    case enqueued hop f hf hv hd => exact .inr (.inl ⟨frameOfHost f, rfl⟩)
    all_goals exact .inl rfl
  all_goals exact .inl rfl

/-- A controller step that is not enabled lapses, in a state that may be found (log entry 8). -/
theorem controllerStep_disabled {enabled : State → Bool} (k : State → Flow) {s : State}
    (hb : s.ctl.cstate ≠ .broadcastingStationId) (he : ¬ enabled s = true) : controllerStep enabled k s = .next s := by
  rcases controllerStep_cases enabled k s with ⟨-, h⟩ | ⟨-, hc, -⟩ | ⟨-, -, -, h⟩ | ⟨-, -, hc, -⟩
  · exact h
  · exact absurd hc hb
  · exact h
  · exact absurd hc he

/-- Settles O58: the queue's first clause event by event, the lapses from the two enabling conditions. -/
theorem queueIsFifoAndDisabledStepsLapse : Obligations.QueueIsFifoAndDisabledStepsLapse := by
  refine ⟨fun s t hr h => ?_, fun s rest hs hb hoff => ?_, fun s rest k hs hb hoff => ?_⟩
  · rcases handled_of_step h with rfl | ⟨e, rest, hs, he⟩
    · exact .inl rfl
    · rcases txq_of_handled (hop_of_not_resetNext hs hr) he with hq | hq | ⟨rfl, hen, hq⟩
      · exact .inl hq
      · exact .inr (.inl hq)
      · obtain ⟨hf, hhold, hrole⟩ := (tenureEnabled_iff _).1 hen
        exact .inr (.inr ⟨⟨rest, hs⟩, hf, hhold, hrole, hq⟩)
  · rw [step_event s _ rest hs]
    refine controllerStep_disabled _ hb fun he => ?_
    obtain ⟨hf, hhold, hrole⟩ := (tenureEnabled_iff (s.withSchedule rest)).1 he
    change s.fatal = false at hf
    change s.ctl.holdsToken = true at hhold
    change s.ctl.cstate = .master ∧ s.ctl.mphase = .mDrain ∨ s.ctl.cstate = .slave at hrole
    simp only [hf, hhold] at hoff
    tauto
  · rw [step_event s _ rest hs]
    refine controllerStep_disabled _ hb fun he => ?_
    obtain ⟨hf, ht⟩ := (timeoutEnabled_iff k (s.withSchedule rest)).1 he
    exact hoff.elim (fun h => by cases h.symm.trans hf) fun h => h ht

end Sys2Proof.Machine
end

section
/-! The receiver's part of the invariant: every byte and every idle line keeps the registers together (R141 to R149). -/

namespace Sys2Proof.Machine

open Sys2Proof

/-! ## The buffer after a store (R146, R147) -/

theorem storeByte_rbuf_same (p : Params) (v : Byte) (r : Receiver) {i : Nat} (hi : i < 18) (h : r.rcount.toNat = i) :
    (storeByte p v r).rbuf[i] = v := by
  simp [h]

theorem storeByte_rbuf_ne (p : Params) (v : Byte) (r : Receiver) {i : Nat} (hi : i < 18) (h : r.rcount.toNat ≠ i) :
    (storeByte p v r).rbuf[i] = r.rbuf[i] := by
  simp [Vector.getElem_setIfInBounds_ne, h]

theorem storeByte_rcount_toNat (p : Params) (v : Byte) {r : Receiver} (h : r.rcount.toNat ≤ 18) :
    (storeByte p v r).rcount.toNat = r.rcount.toNat + 1 := by
  simp only [storeByte_rcount, BitVec.toNat_add, BitVec.toNat_ofNat]
  omega

theorem ChkWidth.bytes_pos (w : ChkWidth) : 0 < w.bytes := by
  cases w <;> decide

/-! ## The deliveries and the byte -/

namespace ReceiverInv

theorem startFrame (p : Params) (r : Receiver) : ReceiverInv p (startFrame p r) := by
  constructor <;> simp

theorem resynchronize {p : Params} {r : Receiver} (h : ReceiverInv p r) : ReceiverInv p (resynchronize r) :=
  { h with sync_no_escape := fun _ => rfl, header := nofun, packet := nofun, checksum := nofun }

/-- The receiver's flag of a pending escape, inside a frame (R142, R145). -/
theorem setEscape {p : Params} {r : Receiver} (h : ReceiverInv p r) (hs : r.rstate ≠ .synchronizing) (b : Bool) :
    ReceiverInv p { r with escPending := b } :=
  { h with sync_no_escape := fun hr => absurd hr hs }

/-- A byte of the header (R146): the second of a header-only frame and the third of a command frame without payload go
on to the checksum, the third of another command frame to the payload. -/
theorem headerByte {p : Params} {r : Receiver} (h : ReceiverInv p r) (hs : r.rstate = .readingHeader) (v : Byte) :
    ReceiverInv p (headerByte p v r) := by
  obtain ⟨hcount, htype, hchk⟩ := h.header hs
  have hstored := storeByte_rcount_toNat p v h.count_le
  have hempty : r.rchk.length < p.chkWidth.bytes := by simp [hchk, ChkWidth.bytes_pos]
  have two (hc : r.rcount + 1#5 = 2#5) : (storeByte p v r).rcount.toNat = 2 := congrArg BitVec.toNat hc
  rcases headerByte_cases p v r with ⟨hc, ht, hr⟩ | ⟨hc, hr⟩ | ⟨hmore, hc, hr⟩ <;> rw [hr]
  · exact
      { count_le := by simp only [two hc]; omega
        chk_le := h.chk_le
        sync_no_escape := nofun
        header := nofun
        packet := nofun
        checksum := fun _ => ⟨hempty, .inl ⟨ht, two hc⟩⟩ }
  · have hthree : (storeByte p v r).rcount.toNat = 3 := congrArg BitVec.toNat hc
    have hlast : r.rcount.toNat = 2 := by omega
    have htype' : typeOf (storeByte p v r).rbuf[0] = true := by
      rw [storeByte_rbuf_ne p v r (by omega) (by omega)]
      exact htype hlast
    have hlen : lenOf v = lenOf (storeByte p v r).rbuf[2] := by rw [storeByte_rbuf_same p v r (by omega) hlast]
    by_cases hz : lenOf v = 0#4
    · simp only [hz, if_pos]
      exact
        { count_le := by simp only [hthree]; omega
          chk_le := h.chk_le
          sync_no_escape := nofun
          header := nofun
          packet := nofun
          checksum := fun _ => ⟨hempty, .inr ⟨htype', hz ▸ hlen, hthree⟩⟩ }
    · have hpos : 0 < (lenOf v).toNat := Nat.pos_of_ne_zero fun h0 => hz (BitVec.eq_of_toNat_eq h0)
      simp only [hz, if_neg, not_false_eq_true]
      exact
        { count_le := by simp only [hthree]; omega
          chk_le := h.chk_le
          sync_no_escape := nofun
          header := nofun
          packet := fun _ => ⟨htype', hlen, hthree.ge, by simp only [hthree]; omega, hchk⟩
          checksum := nofun }
  · have hle : (storeByte p v r).rcount.toNat ≤ 2 := by
      have : (storeByte p v r).rcount.toNat ≠ 3 := fun h3 => hc (BitVec.eq_of_toNat_eq h3)
      omega
    exact
      { count_le := by omega
        chk_le := h.chk_le
        sync_no_escape := fun hr => by cases hs.symm.trans hr
        header := fun _ =>
          ⟨hle, fun h2 => eq_true_of_ne_false fun ht => hmore ⟨BitVec.eq_of_toNat_eq h2, ht⟩, hchk⟩
        packet := fun hr => by cases hs.symm.trans hr
        checksum := fun hr => by cases hs.symm.trans hr }

/-- A byte of the payload (R147): the last one goes on to the checksum. -/
theorem packetByte {p : Params} {r : Receiver} (h : ReceiverInv p r) (hs : r.rstate = .readingPacket) (v : Byte) :
    ReceiverInv p (packetByte p v r) := by
  obtain ⟨htype, hlen, hge, hlt, hchk⟩ := h.packet hs
  have hrlen := r.rlen.isLt
  have hstored := storeByte_rcount_toNat p v h.count_le
  have htype' : typeOf (storeByte p v r).rbuf[0] = true := by rwa [storeByte_rbuf_ne p v r (by omega) (by omega)]
  have hlen' : r.rlen = lenOf (storeByte p v r).rbuf[2] := by rwa [storeByte_rbuf_ne p v r (by omega) (by omega)]
  rcases packetByte_cases p v r with ⟨hc, hr⟩ | ⟨hc, hr⟩ <;> rw [hr]
  · exact
      { count_le := by simp only; omega
        chk_le := h.chk_le
        sync_no_escape := nofun
        header := nofun
        packet := nofun
        checksum := fun _ => ⟨by simp [hchk, ChkWidth.bytes_pos], .inr ⟨htype', hlen', hc⟩⟩ }
  · have hmore : (storeByte p v r).rcount.toNat ≠ 3 + r.rlen.toNat := hc
    exact
      { count_le := by omega
        chk_le := h.chk_le
        sync_no_escape := fun hr => by cases hs.symm.trans hr
        header := fun hr => by cases hs.symm.trans hr
        packet := fun _ => ⟨htype', hlen', by omega, by simp only [storeByte_rlen]; omega, hchk⟩
        checksum := fun hr => by cases hs.symm.trans hr }

/-- A byte of the checksum (R148): the last one ends the frame. -/
theorem checksumByte {p : Params} {r : Receiver} (h : ReceiverInv p r) (hs : r.rstate = .readingChecksum)
    (he : r.escPending = false) (v : Byte) : ReceiverInv p (checksumByte p v r).1 := by
  obtain ⟨hlt, hbuf⟩ := h.checksum hs
  have hle : (r.rchk ++ [v]).length ≤ p.chkWidth.bytes := by simpa using hlt
  have ended {r' : Receiver} (hr : r' = { r with
      rchk := r.rchk ++ [v], framesOk := r'.framesOk, chkFails := r'.chkFails, rstate := .synchronizing }) :
      ReceiverInv p r' := by
    rw [hr]
    exact { h with
      chk_le := hle, sync_no_escape := fun _ => he, header := nofun, packet := nofun, checksum := nofun }
  rcases checksumByte_cases p v r with ⟨hn, hr⟩ | ⟨-, -, hr⟩ | ⟨-, -, hr⟩ <;> rw [hr]
  · exact { h with
      chk_le := hle
      header := fun hr => by cases hs.symm.trans hr
      packet := fun hr => by cases hs.symm.trans hr
      checksum := fun _ => ⟨lt_of_le_of_ne hle hn, hbuf⟩ }
  · exact ended rfl
  · exact ended rfl

theorem deliverByte {p : Params} {r : Receiver} (h : ReceiverInv p r) (he : r.escPending = false) (v : Byte) :
    ReceiverInv p (deliverByte p v r).1 := by
  rcases deliverByte_cases p v r with ⟨-, hr⟩ | ⟨hs, hr⟩ | ⟨hs, hr⟩ | ⟨hs, hr⟩ <;> rw [hr]
  · exact h
  · exact h.headerByte hs v
  · exact h.packetByte hs v
  · exact h.checksumByte hs he v

/-- Every byte of the wire keeps the receiver's registers together. -/
theorem receiveByte {p : Params} {b : Byte} {r r' : Receiver} {v : RxVerdict} (h : ReceiverInv p r)
    (hr : receiveByte p b r = (r', v)) : ReceiverInv p r' := by
  have hfst : r' = (Machine.receiveByte p b r).1 := by rw [hr]
  rw [hfst]
  rcases receiveByte_cases p b r with
    ⟨-, hc⟩ | ⟨-, -, hc⟩ | ⟨-, hs, -, -, hc⟩ | ⟨-, -, -, -, hc⟩ | ⟨-, hs, -, -, hc⟩ | ⟨-, -, he, -, hc⟩ <;> rw [hc]
  · exact startFrame p r
  · exact h
  · exact (h.setEscape hs false).deliverByte rfl _
  · exact h.resynchronize
  · exact h.setEscape hs true
  · exact h.deliverByte he b

theorem receiveIdle {p : Params} {r : Receiver} (h : ReceiverInv p r) : ReceiverInv p (receiveIdle r) := by
  unfold Machine.receiveIdle
  split
  · exact h
  · exact h.resynchronize

theorem reset (p : Params) : ReceiverInv p (Receiver.reset p) := by
  constructor <;> simp [Receiver.reset]

end ReceiverInv

end Sys2Proof.Machine
end

section
/-! The controller's part of the invariant: every rule of the controller, from a settled block, settles it again or
stops it. -/

namespace Sys2Proof.Machine

open Sys2Proof

/-! ## The parameters and the counts -/

/-- The constraints of R8 and of log entry 6 that the counts and the master's id rest on. -/
theorem Params.thresholds_of_wellFormed {p : Params} (h : p.wellFormed = true) :
    p.masterStationId ≠ p.unassignedWireId ∧ 1 ≤ p.nTimeout ∧ 1 ≤ p.nChkFail ∧ p.nRetry + 1 < 2 ^ 32 := by
  simp only [Params.wellFormed, Bool.and_eq_true, decide_eq_true_eq] at h
  tauto

namespace CountInv

variable {p : Params} {c : Controller}

theorem zero_timeouts (h : CountInv p c) : (0#32 : Count).toNat < p.nTimeout := Nat.zero_lt_of_lt h.timeouts

theorem zero_checksums (h : CountInv p c) : (0#32 : Count).toNat < p.nChkFail := Nat.zero_lt_of_lt h.checksums

/-- `PERSIST_FAIL` is clear outside Error (R38). -/
theorem not_persistFail (h : CountInv p c) (hc : c.cstate ≠ .error) : c.persistFail = false :=
  eq_false_of_ne_true fun hp => hc (h.persist hp)

end CountInv

/-- With the role state cleared (R184, R296), the states without a role need nothing more. -/
theorem roleInv_cleared (p : Params) (c : Controller)
    (h : c.cstate = .initial ∨ c.cstate = .sensing ∨ c.cstate = .error) : RoleInv p (clearRole c) := by
  rcases h with h | h | h <;> constructor <;> simp [h, CState.inRing, CState.hasPeer, member]

/-! ## Between the assignments of a step -/

/-- What holds of a running block in the middle of a controller's step: all of the controller's invariant but the phase
and the timer, which the step's last assignments settle. -/
structure State.Steady (s : State) : Prop where
  params : s.params.wellFormed = true
  live : s.fatal = false
  role : RoleInv s.params s.ctl
  counts : CountInv s.params s.ctl

/-- What holds of a running block between the steps. -/
structure State.Settled (s : State) : Prop extends s.Steady where
  phase : s.ctl.cstate = .master → phaseOk s.ctl
  timer : s.ctl.timer = expectedTimer s.ctl

/-- The clauses of the invariant about the controller's registers, of a running block or a stopped one. -/
structure State.ControllerInv (s : State) : Prop where
  role : RoleInv s.params s.ctl
  counts : CountInv s.params s.ctl
  phase : s.fatal = false → s.ctl.cstate = .master → phaseOk s.ctl
  timer : s.fatal = false → s.ctl.timer = expectedTimer s.ctl
  stopped : s.fatal = true → s.ctl.lastError = 1#8 ∨ s.ctl.lastError = 2#8

theorem State.Settled.inv {s : State} (h : s.Settled) : s.ControllerInv :=
  { h with phase := fun _ => h.phase, timer := fun _ => h.timer, stopped := fun hf => by cases h.live.symm.trans hf }

theorem TransportErrorKind.code_le (kind : TransportErrorKind) : kind.code.toNat ≤ 8 := by
  cases kind <;> decide

theorem ErrorCause.code_le (cause : ErrorCause) : cause.code.toNat ≤ 8 := by
  cases cause <;> decide

/-- A TransportError stops the block with its role and its counts as they stand (R293). -/
theorem controllerInv_transportError {s : State} (kind : TransportErrorKind) (hr : RoleInv s.params s.ctl)
    (hc : CountInv s.params s.ctl) : (transportError kind s).ControllerInv where
  role := { hr with }
  counts := { hc with last_error := kind.code_le }
  phase := nofun
  timer := nofun
  stopped _ := by cases kind <;> simp [TransportErrorKind.code]

/-- A pass leaves the phase and the dialogue of an idle master, in every station: only a master has others (R34,
R188). -/
theorem RoleInv.passed_ctl {s : State} (h : RoleInv s.params s.ctl) : s.passed.ctl = { s.ctl with
    holdsToken := false, timer := some .token, mphase := .mIdle, pending := none, pendingPred := none } := by
  by_cases hm : s.ctl.cstate = .master
  · exact if_pos hm
  · obtain ⟨-, hphase, hpending, hpred⟩ := h.master_only hm
    simp [State.passed, hm, hphase, hpending, hpred]

namespace State.Steady

variable {s : State}

theorem settled (h : s.Steady) (hphase : s.ctl.cstate = .master → phaseOk s.ctl)
    (htimer : s.ctl.timer = expectedTimer s.ctl) : s.ControllerInv :=
  Settled.inv { h with phase := hphase, timer := htimer }

/-- The same of a state that is not Master, which has no phase. -/
theorem settled_of_ne_master (h : s.Steady) (hm : s.ctl.cstate ≠ .master)
    (htimer : s.ctl.timer = expectedTimer s.ctl) : s.ControllerInv :=
  h.settled (fun hc => absurd hc hm) htimer

theorem sent (h : s.Steady) (bs : List Byte) : (s.sent bs).Steady := ⟨h.params, h.live, h.role, h.counts⟩

theorem cutOff (h : s.Steady) (room : Nat) (bs : List Byte) : (s.cutOff room bs).ControllerInv :=
  controllerInv_transportError .write h.role h.counts

/-- Sending, with what comes next settled from the state with the bytes sent. -/
theorem send_bind (h : s.Steady) {k : State → Flow} {cmd : BitVec 4} {dest : StationId} {bc : Bool} {d : List Byte}
    (hk : ∀ bs, (k (s.sent bs)).Yields ControllerInv) : ((send cmd dest bc d s).bind k).Yields ControllerInv :=
  send_bind_yields cmd dest bc d s hk h.cutOff

/-- Entry into Error, from every other state (R296): the retries are counted, and past `N_RETRY` the failure is
persistent. -/
theorem enterError (h : s.Steady) (hc : s.ctl.cstate ≠ .error) (cause : ErrorCause) :
    (enterError cause s).ControllerInv := by
  obtain ⟨-, -, -, hmax⟩ := Params.thresholds_of_wellFormed h.params
  have hp := h.counts.not_persistFail hc
  have hretry : (s.ctl.errRetries + 1#32).toNat = s.ctl.errRetries.toNat + 1 := by
    have := h.counts.not_persist hp
    simp only [BitVec.toNat_add, BitVec.toNat_ofNat]
    omega
  have hrole := roleInv_cleared s.params { s.ctl with cstate := .error } (by simp)
  refine settled_of_ne_master ⟨h.params, h.live, { hrole with }, ?_⟩ nofun rfl
  exact
    { timeouts := h.counts.zero_timeouts
      checksums := h.counts.zero_checksums
      retries := by
        have := h.counts.not_persist hp
        simp only [enterError_params, enterError_ctl, hretry]
        omega
      persist := fun _ => rfl
      not_persist := by simp [hp]
      last_error := cause.code_le }

/-- `PROTOCOL_TIMEOUT` (R178): below the threshold the count is one more. -/
theorem protocolTimeout (h : s.Steady) (hc : s.ctl.cstate ≠ .error) {k : State → Flow}
    (hk : ∀ n, Steady { s with ctl := { s.ctl with toCount := n } } →
      (k { s with ctl := { s.ctl with toCount := n } }).Yields ControllerInv) :
    (protocolTimeout s k).Yields ControllerInv :=
  protocolTimeout_yields s (h.enterError hc _) fun hlt =>
    hk _ ⟨h.params, h.live, { h.role with }, { h.counts with timeouts := hlt }⟩

/-- A token pass of a station in the ring with no dialogue open (R188, R192). -/
theorem passToken (h : s.Steady) (hrole : s.ctl.cstate = .master ∨ s.ctl.cstate = .slave) (hp : s.ctl.pending = none)
    (hq : s.ctl.pendingPred = none) : (passToken s).Yields ControllerInv := by
  refine passToken_yields s (fun halone => ?_) (fun bs => ?_) fun room bs => ?_
  · have hm : s.ctl.cstate = .master := hrole.resolve_right fun hs => h.role.slave_successor (.inl hs) halone
    exact settled ⟨h.params, h.live,
        { h.role with holder := fun _ => .inl hm, master_only := fun hn => absurd hm hn },
        { h.counts with timeouts := h.counts.zero_timeouts }⟩
      (fun _ => ⟨rfl, hp, hq⟩) (by simp [expectedTimer, hm])
  · have hctl := h.role.passed_ctl
    have hpassed : s.passed.Steady := by
      refine ⟨h.params, h.live, ?_, ?_⟩ <;> rw [hctl]
      · exact { h.role with
          holder := nofun
          master_only := fun hn => ⟨(h.role.master_only hn).1, rfl, rfl, rfl⟩
          pending_free := nofun }
      · exact { h.counts with }
    refine (hpassed.sent bs).settled ?_ ?_ <;> simp only [State.sent_ctl, hctl]
    · exact fun _ => ⟨rfl, rfl, rfl⟩
    · rcases hrole with hm | hs
      · simp [expectedTimer, hm]
      · simp [expectedTimer, hs]
  · exact cutOff (s := dropToken s) ⟨h.params, h.live, { h.role with holder := nofun }, { h.counts with }⟩ room bs

end State.Steady

/-! ## The ring (R30, R197, R198) -/

theorem member_insertId (set : BitVec 64) (i j : StationId) :
    member (insertId set i) j = true ↔ member set j = true ∨ j = i := by
  have hi := i.isLt
  have hj := j.isLt
  have heq : j = i ↔ j.toNat = i.toNat := BitVec.toNat_inj.symm
  simp only [member, insertId, BitVec.getLsbD_or, BitVec.getLsbD_shiftLeft, BitVec.getLsbD_one, Bool.or_eq_true,
    Bool.and_eq_true, Bool.not_eq_true', decide_eq_true_eq, decide_eq_false_iff_not, heq]
  refine or_congr_right ?_
  omega

/-- A ring with the dialogue's station in it (R248): it is neither the block's own id nor the unassigned one. -/
theorem RoleInv.known_insert {p : Params} {c : Controller} (h : RoleInv p c) {new : StationId}
    (hnew : c.pending = some new) (i : StationId) (hi : member (insertId c.known new) i = true) :
    c.ownId ≠ some i ∧ i ≠ p.unassignedWireId := by
  rcases (member_insertId _ _ _).1 hi with hk | rfl
  · exact h.known_others i hk
  · obtain ⟨hown, hfree, -⟩ := h.pending_free i hnew
    exact ⟨hown, hfree⟩

/-- The id that `ASSIGN_ID` finds is free (R198). -/
theorem assignId_free {s : State} {n : StationId} (h : s.assignId = some n) :
    s.ctl.ownId ≠ some n ∧ n ≠ s.params.unassignedWireId ∧ member s.ctl.known n = false := by
  have := List.find?_some h
  simp only [Bool.and_eq_true, decide_eq_true_eq, Bool.not_eq_true'] at this
  tauto

theorem fromStation_iff (h : Header) (r : Option StationId) : fromStation h r = true ↔ r = some h.src := by
  simp [fromStation]

/-- In the middle of a tenure's drain (R187): the block is steady, and of its controller only the queue has changed. -/
def Draining (s t : State) : Prop := t.Steady ∧ ∃ q, t.ctl = { s.ctl with txq := q }

/-! ## The rules of the frame kinds -/

namespace State.Settled

variable {s : State}

/-- R241 in SlaveWaitingToJoin: an answer goes to the solicit's source, which becomes the peer. -/
theorem answerSolicit (h : s.Settled) (hc : s.ctl.cstate = .slaveWaitingToJoin) (hdr : Header) :
    (answerSolicit hdr s).Yields ControllerInv := by
  unfold Machine.answerSolicit
  split
  · have hpeer : Steady { s with ctl := { s.ctl with peer := some hdr.src } } :=
      ⟨h.params, h.live, { h.role with peer_set := nofun }, { h.counts with }⟩
    refine hpeer.send_bind fun bs => ?_
    refine Steady.settled_of_ne_master ⟨h.params, h.live, { hpeer.role with }, { h.counts with }⟩ ?_ ?_ <;>
      simp [hc, expectedTimer]
  · exact h.inv

/-- R185. -/
theorem sensingTraffic (h : s.Settled) (hc : s.ctl.cstate = .sensing) (f : Frame) :
    (sensingTraffic f s).Yields ControllerInv := by
  have hm : s.ctl.cstate ≠ .master := by simp [hc]
  have hjoin : Settled { s.setCState .slaveWaitingToJoin .r185 with
      ctl := { s.ctl with cstate := .slaveWaitingToJoin, peer := none, timer := some .joinWait } } :=
    { params := h.params
      live := h.live
      role := { h.role with
        reachable := nofun
        ring_id := nofun
        no_id := fun _ _ => h.role.no_id (by simp [hc, CState.inRing]) (by simp [hc])
        slave_successor := nofun
        peer_set := nofun
        holder := fun hh => absurd (h.role.holder hh) (by simp [hc])
        master_only := fun _ => h.role.master_only hm }
      counts := { h.counts with persist := by simp [h.counts.not_persistFail (by simp [hc])] }
      phase := nofun
      timer := rfl }
  unfold Machine.sensingTraffic
  simp only
  split
  · exact hjoin.answerSolicit rfl _
  · exact hjoin.inv

/-- R240. -/
theorem tokenRule (h : s.Settled) (he : s.ctl.cstate ≠ .error) (hdr : Header) :
    (tokenRule hdr s).Yields ControllerInv := by
  unfold Machine.tokenRule
  split
  · split
    · next hm =>
      split
      · next hphase =>
        have hok := h.phase hm
        simp only [phaseOk, hphase] at hok
        obtain ⟨-, hp, hq⟩ := hok
        exact Steady.settled ⟨h.params, h.live,
            { h.role with holder := fun _ => .inl hm, master_only := fun hn => absurd hm hn },
            { h.counts with timeouts := h.counts.zero_timeouts }⟩
          (fun _ => ⟨rfl, hp, hq⟩) (by simp [expectedTimer, hm])
      · exact h.toSteady.enterError he _
    · next hs =>
      split
      · exact h.toSteady.enterError he _
      · exact Steady.settled_of_ne_master ⟨h.params, h.live, { h.role with holder := fun _ => .inr hs },
            { h.counts with timeouts := h.counts.zero_timeouts }⟩
          (by simp [hs]) (by simp [expectedTimer, hs])
    · next hw =>
      have hidle := h.role.master_only (by simp [hw])
      obtain ⟨-, -, hp, hq⟩ := hidle
      refine Steady.passToken ⟨h.params, h.live, ?_, ?_⟩ (.inr rfl) hp hq
      · exact { h.role with
          reachable := nofun
          ring_id := fun _ => h.role.ring_id (by simp [hw, CState.inRing])
          no_id := nofun
          slave_successor := fun _ => h.role.slave_successor (.inr hw)
          peer_set := fun _ => h.role.peer_set (by simp [hw, CState.hasPeer])
          holder := fun _ => .inr rfl
          master_only := fun _ => h.role.master_only (by simp [hw]) }
      · exact { h.counts with
          timeouts := h.counts.zero_timeouts
          retries := Nat.zero_le _
          persist := by simp [h.counts.not_persistFail he]
          not_persist := fun _ => Nat.zero_le _ }
    · exact h.inv
  · exact h.inv

/-- R241. -/
theorem solicitRule (h : s.Settled) (he : s.ctl.cstate ≠ .error) (hdr : Header) :
    (solicitRule hdr s).Yields ControllerInv := by
  unfold Machine.solicitRule
  split
  · next hc => exact h.answerSolicit hc hdr
  · exact h.toSteady.enterError he _
  · exact h.inv

/-- R243: the offered id is free. -/
theorem getAddressRule (h : s.Settled) (hdr : Header) : (getAddressRule hdr s).Yields ControllerInv := by
  unfold Machine.getAddressRule
  split
  · next hcond =>
    obtain ⟨hm, hphase, -⟩ := hcond
    split
    · exact h.inv
    · next n hn =>
      have hoffer : Steady { s with ctl := { s.ctl with pending := some n } } :=
        ⟨h.params, h.live,
          { h.role with
            master_only := fun hne => absurd hm hne
            pending_free := fun i hi => by cases hi; exact assignId_free hn },
          { h.counts with }⟩
      have hok := h.phase hm
      simp only [phaseOk, hphase] at hok
      obtain ⟨hhold, -, hpred⟩ := hok
      refine hoffer.send_bind fun bs => (hoffer.sent bs).send_bind fun bs' => ?_
      exact Steady.settled ⟨h.params, h.live,
          { hoffer.role with master_only := fun hne => absurd hm hne },
          { h.counts with timeouts := h.counts.zero_timeouts }⟩
        (fun _ => ⟨hhold, nofun, hpred⟩) (by simp [expectedTimer, hm])
  · exact h.inv

/-- R244. -/
theorem addressOfferedRule (h : s.Settled) (hdr : Header) : (addressOfferedRule hdr s).Yields ControllerInv := by
  unfold Machine.addressOfferedRule
  split
  · next hcond =>
    obtain ⟨hc, -, hsrc⟩ := hcond
    have hpeer := (fromStation_iff hdr _).1 hsrc
    refine Steady.settled_of_ne_master ⟨h.params, h.live, ?_, ?_⟩ nofun rfl
    · exact { h.role with
        reachable := nofun
        ring_id := nofun
        no_id := fun _ hne => absurd rfl hne
        slave_successor := nofun
        peer_set := fun _ => by simp [hpeer]
        holder := fun hh => absurd (h.role.holder hh) (by simp [hc])
        master_only := fun _ => h.role.master_only (by simp [hc]) }
    · exact { h.counts with
        timeouts := h.counts.zero_timeouts
        persist := by simp [h.counts.not_persistFail (by simp [hc])] }
  · exact h.inv

/-- R245: the block takes the id it is given. -/
theorem setAddressRule (h : s.Settled) (hdr : Header) (d : List Byte) :
    (setAddressRule hdr d s).Yields ControllerInv := by
  unfold Machine.setAddressRule
  split
  · exact h.inv
  · next i _ =>
    split
    · next hcond =>
      obtain ⟨hc, -, -, -, hfree, -⟩ := hcond
      obtain ⟨hknown, -, hpending, -⟩ := h.role.master_only (by simp [hc])
      have hnamed : Steady { s with ctl := { s.ctl with ownId := some i } } :=
        ⟨h.params, h.live,
          { h.role with
            assigned := by simpa using hfree
            ring_id := by simp [hc, CState.inRing]
            no_id := fun _ hne => absurd hc hne
            slave_successor := by simp [hc]
            known_others := by simp [hknown, member]
            pending_free := by simp [hpending] },
          { h.counts with }⟩
      refine hnamed.send_bind fun bs => ?_
      exact Steady.settled_of_ne_master ⟨h.params, h.live, { hnamed.role with },
          { h.counts with timeouts := h.counts.zero_timeouts }⟩
        (by simp [hc]) (by simp [expectedTimer, hc])
    · exact h.inv

/-- R246. -/
theorem addressSetRule (h : s.Settled) (hdr : Header) : (addressSetRule hdr s).Yields ControllerInv := by
  unfold Machine.addressSetRule
  split
  · next hcond =>
    obtain ⟨hm, hphase, -, -⟩ := hcond
    split
    · trivial
    · have hok := h.phase hm
      simp only [phaseOk, hphase] at hok
      refine h.toSteady.send_bind fun bs => ?_
      exact Steady.settled ⟨h.params, h.live,
          { h.role with master_only := fun hne => absurd hm hne },
          { h.counts with timeouts := h.counts.zero_timeouts }⟩
        (fun _ => hok) (by simp [expectedTimer, hm])
  · exact h.inv

/-- R247: the new successor is not the block itself; a joiner has its place in the ring. -/
theorem setSuccessorRule (h : s.Settled) (hdr : Header) (d : List Byte) :
    (setSuccessorRule hdr d s).Yields ControllerInv := by
  unfold Machine.setSuccessorRule
  split
  · exact h.inv
  · next i _ =>
    split
    · next hcond =>
      obtain ⟨hc, hown, -, hsrc, hother, -⟩ := hcond
      have hm : s.ctl.cstate ≠ .master := by rcases hc with hc | hc | hc <;> simp [hc]
      have he : s.ctl.cstate ≠ .error := by rcases hc with hc | hc | hc <;> simp [hc]
      have hlinked : Steady { s with ctl := { s.ctl with successor := some i } } :=
        ⟨h.params, h.live,
          { h.role with
            ring_id := fun _ => ⟨hown, nofun⟩
            slave_successor := fun _ heq => hother heq.symm },
          { h.counts with }⟩
      refine hlinked.send_bind fun bs => ?_
      simp only
      split
      · next hj =>
        refine Steady.settled_of_ne_master ⟨h.params, h.live, ?_, ?_⟩ nofun rfl
        · exact { h.role with
            reachable := nofun
            ring_id := fun _ => ⟨hown, nofun⟩
            no_id := nofun
            slave_successor := fun _ heq => hother heq.symm
            peer_set := fun _ => by simp [(fromStation_iff hdr _).1 hsrc]
            holder := fun hh => absurd (h.role.holder hh) (by simp [show s.ctl.cstate = .slaveJoining from hj])
            master_only := fun _ => h.role.master_only hm }
        · exact { h.counts with
            timeouts := h.counts.zero_timeouts
            persist := by simp [h.counts.not_persistFail he] }
      · exact Steady.settled_of_ne_master ⟨h.params, h.live, { hlinked.role with },
          { h.counts with timeouts := h.counts.zero_timeouts }⟩ hm h.timer
    · exact h.inv

/-- R248: the dialogue's station enters the ring, at the master's side or past its predecessor. -/
theorem successorSetRule (h : s.Settled) (hdr : Header) : (successorSetRule hdr s).Yields ControllerInv := by
  unfold Machine.successorSetRule
  split
  · next hcond =>
    obtain ⟨hm, -⟩ := hcond
    have hok := h.phase hm
    split
    · next hphase =>
      simp only [phaseOk, hphase] at hok
      obtain ⟨hhold, -, hpred⟩ := hok
      split
      · next hsrc =>
        have hpending := (fromStation_iff hdr _).1 hsrc
        split
        · trivial
        · next pred _ =>
          simp only
          split
          · refine Steady.passToken ⟨h.params, h.live, ?_, ?_⟩ (.inl hm) rfl hpred
            · exact { h.role with
                ring_id := fun hr => ⟨(h.role.ring_id hr).1, nofun⟩
                slave_successor := by simp [hm]
                master_only := fun hne => absurd hm hne
                known_others := h.role.known_insert hpending
                pending_free := nofun }
            · exact { h.counts with timeouts := h.counts.zero_timeouts }
          · have hasked : Steady { s with ctl := { s.ctl with toCount := 0#32, pendingPred := some pred } } :=
              ⟨h.params, h.live,
                { h.role with master_only := fun hne => absurd hm hne },
                { h.counts with timeouts := h.counts.zero_timeouts }⟩
            refine hasked.send_bind fun bs => ?_
            exact Steady.settled ⟨h.params, h.live, { h.role with master_only := fun hne => absurd hm hne },
                { hasked.counts with }⟩
              (fun _ => ⟨hhold, by simp [hpending], nofun⟩) (by simp [expectedTimer, hm])
      · exact h.inv
    · next hphase =>
      split
      · refine Steady.passToken ⟨h.params, h.live, ?_, ?_⟩ (.inl hm) rfl rfl
        · exact { h.role with
            master_only := fun hne => absurd hm hne
            known_others := by
              cases hpending : s.ctl.pending with
              | none => exact h.role.known_others
              | some new => exact h.role.known_insert hpending
            pending_free := nofun }
        · exact { h.counts with timeouts := h.counts.zero_timeouts }
      · exact h.inv
    · exact h.inv
  · exact h.inv

/-- Every frame kind's rule, in every state but Error. -/
theorem kindRule (h : s.Settled) (he : s.ctl.cstate ≠ .error) (f : Frame) : (kindRule f s).Yields ControllerInv :=
  kindRule_yields f s (h.tokenRule he) (h.solicitRule he) h.getAddressRule h.addressOfferedRule h.setAddressRule
    h.addressSetRule h.setSuccessorRule h.successorSetRule h.inv

theorem dispatchFrame (h : s.Settled) (f : Frame) :
    (dispatchFrame f (Machine.kindRule f) s).Yields ControllerInv := by
  rcases dispatchFrame_cases f (Machine.kindRule f) s with
    ⟨-, hd⟩ | ⟨hc, hd⟩ | ⟨he, -, -, hd⟩ | ⟨he, -, -, hd⟩ <;> rw [hd]
  · exact h.inv
  · exact h.sensingTraffic hc f
  · exact h.toSteady.enterError he _
  · exact h.kindRule he f

/-- The record of a frame (R179) clears the checksum failures and settles nothing else anew. -/
theorem recordFrame (h : s.Settled) (f : Frame) : (recordFrame f s).Settled where
  params := by simpa using h.params
  live := by simpa using h.live
  role := by simpa using { h.role with }
  counts := by simpa using { h.counts with checksums := h.counts.zero_checksums }
  phase := by rw [recordFrame_ctl]; exact h.phase
  timer := by rw [recordFrame_ctl]; exact h.timer

/-- R180. -/
theorem checksumFail (h : s.Settled) : (checksumFail s).ControllerInv := by
  have counted (he : s.ctl.cstate ≠ .error) :
      (if s.params.nChkFail ≤ (s.ctl.ckCount + 1#32).toNat then
        enterError .repeatedChecksum { s with ctl := { s.ctl with ckCount := s.ctl.ckCount + 1#32 } }
      else { s with ctl := { s.ctl with ckCount := s.ctl.ckCount + 1#32 } }).ControllerInv := by
    split
    · rw [enterError_ckCount]
      exact h.toSteady.enterError he _
    · next hlt =>
      exact Steady.settled ⟨h.params, h.live, { h.role with },
        { h.counts with checksums := Nat.lt_of_not_le hlt }⟩ h.phase h.timer
  unfold Machine.checksumFail
  split
  case h_7 => exact h.inv
  all_goals next hc => exact counted (by simp [hc])

/-! ## The timers -/

/-- R186: the block becomes the master, alone. -/
theorem selfElect (h : s.Steady) (hc : s.ctl.cstate = .sensing) : (selfElect s).ControllerInv := by
  obtain ⟨hid, -, -, -⟩ := Params.thresholds_of_wellFormed h.params
  obtain ⟨-, -, hp, hq⟩ := h.role.master_only (by simp [hc])
  refine Steady.settled ⟨h.params, h.live, ?_, ?_⟩ (fun _ => ⟨rfl, hp, hq⟩) rfl
  · exact { h.role with
      reachable := nofun
      assigned := by simpa using hid
      ring_id := fun _ => ⟨nofun, nofun⟩
      no_id := nofun
      slave_successor := nofun
      peer_set := nofun
      holder := fun _ => .inl rfl
      master_only := fun hne => absurd rfl hne
      known_others := by simp [member]
      pending_free := by simp [hp] }
  · exact { h.counts with
      timeouts := h.counts.zero_timeouts
      retries := Nat.zero_le _
      persist := by simp [h.counts.not_persistFail (by simp [hc])]
      not_persist := fun _ => Nat.zero_le _ }

/-- R178 with a timer to arm again, in the states of a joiner. -/
theorem rearmed (h : s.Steady) (hm : s.ctl.cstate ≠ .master) (he : s.ctl.cstate ≠ .error) {k : TimerKind}
    (hk : expectedTimer s.ctl = some k) : (protocolTimeout s fun t => .go (t.arm k)).Yields ControllerInv :=
  h.protocolTimeout he fun _ hn =>
    Steady.settled_of_ne_master ⟨h.params, h.live, { hn.role with }, { hn.counts with }⟩ hm hk.symm

/-- R190, R192: the master gives up a dialogue that got no reply. -/
theorem abandonJoin (h : s.Steady) (hm : s.ctl.cstate = .master) : (abandonJoin s).Yields ControllerInv := by
  have hclosed : Steady { s with ctl := { s.ctl with pending := none, pendingPred := none } } :=
    ⟨h.params, h.live, { h.role with master_only := fun hne => absurd hm hne, pending_free := nofun },
      { h.counts with }⟩
  exact hclosed.protocolTimeout (by simp [hm]) fun _ hn => hn.passToken (.inl hm) rfl rfl

/-- R194: a joiner without its reply waits for a solicit again. -/
theorem joinReplyExpired (h : s.Steady) (hc : s.ctl.cstate = .slaveWaitingToJoin) :
    (joinReplyExpired s).Yields ControllerInv := by
  have halone : Steady { s with ctl := { s.ctl with peer := none } } :=
    ⟨h.params, h.live, { h.role with peer_set := by simp [hc, CState.hasPeer] }, { h.counts with }⟩
  exact rearmed halone (by simp [hc]) (by simp [hc]) (by simp [expectedTimer, hc])

/-- The timer of R177's table always has a rule: where it expires, the rule of the block's state settles the block
again. -/
theorem timeoutRule (h : s.Steady) (hphase : s.ctl.cstate = .master → phaseOk s.ctl) {k : TimerKind}
    (hk : expectedTimer s.ctl = some k) : (timeoutRule k s).Yields ControllerInv := by
  have lost (he : s.ctl.cstate ≠ .error) : (tokenLost s).Yields ControllerInv := h.enterError he _
  unfold Machine.timeoutRule
  cases hc : s.ctl.cstate with
  | initial => simp [expectedTimer, hc] at hk
  | broadcastingStationId => trivial
  | error => simp [expectedTimer, hc] at hk
  | sensing =>
    obtain rfl : .sense = k := by simpa [expectedTimer, hc] using hk
    exact selfElect h hc
  | slaveWaitingToJoin =>
    by_cases hp : s.ctl.peer = none
    · obtain rfl : .joinWait = k := by simpa [expectedTimer, hc, hp] using hk
      exact rearmed h (by simp [hc]) (by simp [hc]) hk
    · obtain rfl : .resp = k := by simpa [expectedTimer, hc, hp] using hk
      exact joinReplyExpired h hc
  | slaveJoining =>
    obtain rfl : .resp = k := by simpa [expectedTimer, hc] using hk
    exact rearmed h (by simp [hc]) (by simp [hc]) hk
  | slaveWaitingForFirstToken =>
    obtain rfl : .token = k := by simpa [expectedTimer, hc] using hk
    exact lost (by simp [hc])
  | slave =>
    obtain ⟨-, rfl⟩ : s.ctl.holdsToken = false ∧ .token = k := by simpa [expectedTimer, hc] using hk
    exact lost (by simp [hc])
  | master =>
    have hok := hphase hc
    cases hm : s.ctl.mphase with
    | mIdle =>
      obtain rfl : .token = k := by simpa [expectedTimer, hc, hm] using hk
      simpa only [hm] using lost (by simp [hc])
    | mDrain => simp [expectedTimer, hc, hm] at hk
    | mSolicit =>
      obtain rfl : .joinWin = k := by simpa [expectedTimer, hc, hm] using hk
      simp only [phaseOk, hm] at hok
      obtain ⟨-, hp, hq⟩ := hok
      simpa only [hm] using h.passToken (.inl hc) hp hq
    | mWaitDevAck =>
      obtain rfl : .resp = k := by simpa [expectedTimer, hc, hm] using hk
      simpa only [hm] using abandonJoin h hc
    | mWaitSuccAck =>
      obtain rfl : .resp = k := by simpa [expectedTimer, hc, hm] using hk
      simpa only [hm] using abandonJoin h hc
    | mWaitPredAck =>
      obtain rfl : .resp = k := by simpa [expectedTimer, hc, hm] using hk
      simpa only [hm] using abandonJoin h hc

/-- `Timeout(k)` of the armed timer (R176). -/
theorem timeoutStep (h : s.Settled) {k : TimerKind} (hk : s.ctl.timer = some k) :
    (timeoutStep k s).Yields ControllerInv :=
  timeoutRule (s := s.disarm) ⟨h.params, h.live, { h.role with }, { h.counts with }⟩ h.phase (h.timer.symm.trans hk)

/-! ## The tenure and the exit from Error -/

/-- R187, R189: the drain leaves role, counts and phase; a master then solicits and a slave passes the token. -/
theorem tenureStep (h : s.Settled) (he : s.tenureEnabled = true) : (tenureStep s).Yields ControllerInv := by
  obtain ⟨-, -, hrole⟩ := (tenureEnabled_iff s).1 he
  refine drainQueue_bind_yields (P := Draining s) ?_ ?_ ?_ ?_ _ _ _ s rfl ⟨h.toSteady, _, rfl⟩
  · rintro t bs ⟨ht, hq⟩
    exact ⟨ht.sent bs, hq⟩
  · rintro t f rest - ⟨ht, q, hq⟩
    exact ⟨⟨ht.params, ht.live, { ht.role with }, { ht.counts with }⟩, rest, by simp [hq]⟩
  · rintro t room bs ⟨ht, -⟩
    exact ht.cutOff room bs
  · rintro t ⟨ht, q, hq⟩
    have hcstate : t.ctl.cstate = s.ctl.cstate := by rw [hq]
    split
    · next hm =>
      have hmaster := hcstate.symm.trans hm
      have hdrain : s.ctl.mphase = .mDrain := hrole.elim And.right fun hs => by cases hmaster.symm.trans hs
      have hok := h.phase hmaster
      simp only [phaseOk, hdrain] at hok
      refine ht.send_bind fun bs => ?_
      exact Steady.settled ⟨ht.params, ht.live,
          { ht.role with master_only := fun hne => absurd hm hne }, { ht.counts with }⟩
        (fun _ => by simpa [phaseOk, hq] using hok) (by simp [expectedTimer, hm])
    · next hm =>
      obtain ⟨-, -, hp, hpred⟩ := ht.role.master_only hm
      have hslave : t.ctl.cstate = .slave :=
        hrole.elim (fun hd => absurd (hcstate.trans hd.1) hm) hcstate.trans
      exact ht.passToken (.inr hslave) hp hpred

end State.Settled

/-- Entry into Sensing clears the role (R184); it comes from a state with no persistent failure (R183, R297). -/
theorem controllerInv_enterSensing {s : State} (hp : s.params.wellFormed = true) (hf : s.fatal = false)
    (hc : CountInv s.params s.ctl) (hpersist : s.ctl.persistFail = false) (w : LogCause) :
    (enterSensing w s).ControllerInv :=
  State.Steady.settled_of_ne_master ⟨hp, hf, { roleInv_cleared _ { s.ctl with cstate := .sensing } (by simp) with },
      { hc with
        timeouts := hc.zero_timeouts
        checksums := hc.zero_checksums
        persist := by simp [hpersist] }⟩
    nofun rfl

end Sys2Proof.Machine
end

section
/-! The invariant of the whole block: every event keeps it. -/

namespace Sys2Proof.Machine

open Sys2Proof

/-! ## The queue (R43, R62, R102) -/

/-- A frame that `VALID_HOST_FRAME` admits can be sent (R102). -/
theorem frameOfHost_wellFormed {f : HostFrame} (h : hostFrameError f = none) : (frameOfHost f).wellFormed = true := by
  have hlen : f.payload.length ≤ 15 := by
    by_contra hlong
    simp only [hostFrameError, bodyError] at h
    split_ifs at h
    omega
  simpa [CommandFrame.wellFormed, payloadOk, frameOfHost] using hlen

namespace QueueInv

theorem drop {p : Params} {c d : Controller} (h : QueueInv p c) {n : Nat} (hq : d.txq = c.txq.drop n) :
    QueueInv p d where
  sendable f hf := h.sendable f (List.mem_of_mem_drop (hq ▸ hf))
  depth k hk := by
    have := h.depth k hk
    rw [hq, List.length_drop]
    omega

/-- R263: a queue that is not full takes a frame that can be sent. -/
theorem append {p : Params} {c : Controller} (h : QueueInv p c) {f : CommandFrame} (hf : f.wellFormed = true)
    (hd : p.queueDepth ≠ some c.txq.length) : QueueInv p { c with txq := c.txq ++ [f] } where
  sendable g hg := by
    rcases List.mem_append.1 hg with hg | hg
    · exact h.sendable g hg
    · rwa [List.mem_singleton.1 hg]
  depth k hk := by
    have hle := h.depth k hk
    have hne : c.txq.length ≠ k := fun he => hd (he ▸ hk)
    simp only [List.length_append, List.length_singleton]
    omega

end QueueInv

/-- The reset registers have the invariant, whatever the admitted parameters (R321). -/
theorem resetWith_inv {p : Params} (hp : p.wellFormed = true) : (State.resetWith p).Inv := by
  obtain ⟨-, hTimeout, hChkFail, -⟩ := Params.thresholds_of_wellFormed hp
  exact
    { params := hp
      receiver := .reset p
      queue := ⟨nofun, fun _ _ => Nat.zero_le _⟩
      role := { roleInv_cleared p Controller.reset (.inl rfl) with }
      counts :=
        { timeouts := hTimeout
          checksums := hChkFail
          retries := Nat.zero_le _
          persist := nofun
          not_persist := fun _ => Nat.zero_le _
          last_error := Nat.zero_le _ }
      phase := nofun
      timer := fun _ => rfl
      closed := fun _ => ⟨rfl, rfl⟩
      stopped := nofun
      readPoint := Nat.le_refl _ }

namespace State.Inv

variable {s t : State}

theorem settled (h : s.Inv) (hf : s.fatal = false) : s.Settled :=
  ⟨⟨h.params, hf, h.role, h.counts⟩, h.phase hf, h.timer hf⟩

/-- A block past Initial has been opened (R44). -/
theorem opened_of_ne_initial (h : s.Inv) (hc : s.ctl.cstate ≠ .initial) : s.opened = true :=
  eq_true_of_ne_false fun ho => hc (h.closed ho).1

/-- A controller step in an opened block that takes `n` frames from the queue and leaves the controller's part of the
invariant. -/
theorem of_popped (h : s.Inv) (ho : s.opened = true) {n : Nat} (hframe : ControllerFrame (s.pop n) t)
    (hc : t.ControllerInv) : t.Inv where
  params := hframe.params ▸ h.params
  receiver := by rw [hframe.params, hframe.rx]; exact h.receiver
  queue := hframe.params ▸ h.queue.drop hframe.txq
  role := hc.role
  counts := hc.counts
  phase := hc.phase
  timer := hc.timer
  closed hclosed := by cases (hframe.opened.trans ho).symm.trans hclosed
  stopped := hc.stopped
  readPoint := hframe.rxRead ▸ h.readPoint.trans hframe.rxOut.length_le

/-- The same of a step that leaves the queue. -/
theorem of_frame (h : s.Inv) (ho : s.opened = true) (hframe : ControllerFrame s t) (hc : t.ControllerInv) : t.Inv :=
  h.of_popped (n := 0) ho hframe hc

/-- The receiver's registers are their own part of the invariant. -/
theorem setRx (h : s.Inv) {r : Receiver} (hr : ReceiverInv s.params r) : State.Inv { s with rx := r } :=
  { h with receiver := hr }

theorem of_hostEffect (h : s.Inv) (he : HostEffect s t) : t.Inv := by
  cases he
  case answered => exact { h with }
  case opened => exact { h with closed := nofun }
  case started hf ho hc =>
    have hpersist := h.counts.not_persistFail (by simp [hc])
    have hsensing := h.of_frame ho (.enterSensing .start s) (controllerInv_enterSensing h.params hf h.counts hpersist _)
    exact { hsensing with }
  case enqueued hop f hf hv hd =>
    exact { h with
      queue := h.queue.append (frameOfHost_wellFormed hv) hd
      role := { h.role with }
      counts := { h.counts with } }
  case waits => exact { h with }

/-- Every event that is handled keeps the invariant. -/
theorem of_handled (h : s.Inv) {e : Event} (he : Handled s e t) : t.Inv := by
  have live (ha : s.activity = .active) : s.fatal = false ∧ s.opened = true := (running_of_active ha).1
  cases he
  case lapsed => exact h
  case byteStored r ha hb => exact h.setRx (h.receiver.receiveByte hb)
  case frameReceived b r f ha hb ht =>
    obtain ⟨hf, ho⟩ := live ha
    have hrx := h.setRx (h.receiver.receiveByte hb)
    exact hrx.of_frame ho (.received ht) ((((hrx.settled hf).recordFrame f).dispatchFrame f).of_outcome ht)
  case frameSpoilt b r ha hb =>
    obtain ⟨hf, ho⟩ := live ha
    have hrx := h.setRx (h.receiver.receiveByte hb)
    exact hrx.of_frame ho (.checksumFail _) (hrx.settled hf).checksumFail
  case lineIdle ha => exact h.setRx h.receiver.receiveIdle
  case readFailed ha =>
    exact h.of_frame (live ha).2 (.transportError .read s) (controllerInv_transportError .read h.role h.counts)
  case expired k hen ht =>
    obtain ⟨hf, hk⟩ := (timeoutEnabled_iff k s).1 hen
    have ho : s.opened = true := h.opened_of_ne_initial fun hc => by simp [h.timer hf, expectedTimer, hc] at hk
    exact h.of_frame ho ((ControllerFrame.timeoutStep k s).of_outcome ht)
      (((h.settled hf).timeoutStep hk).of_outcome ht)
  case tenure hen ht =>
    obtain ⟨hf, hhold, -⟩ := (tenureEnabled_iff s).1 hen
    have ho : s.opened = true := h.opened_of_ne_initial fun hc => by simpa [hc] using h.role.holder hhold
    obtain ⟨n, hframe⟩ := (tenureStep_frame s).of_outcome ht
    exact h.of_popped ho hframe (((h.settled hf).tenureStep hen).of_outcome ht)
  case errorExit hen =>
    obtain ⟨hf, hc, hpersist⟩ := (errorExitEnabled_iff s).1 hen
    exact h.of_frame (h.opened_of_ne_initial (by simp [hc])) (.enterSensing _ s)
      (controllerInv_enterSensing h.params hf h.counts hpersist _)
  case hostReset => exact { resetWith_inv h.params with readPoint := h.readPoint }
  case hostEffect r he => exact h.of_hostEffect he
  case waitReturned => exact { h with }
  case frameTaken ha => exact { h with readPoint := ha }
  case transportChanged => exact { h with }

end State.Inv

/-- Settles O49: by the inversion of a step, and one preservation lemma per event and per rule. -/
theorem everyStepKeepsTheInvariant : Obligations.EveryStepKeepsTheInvariant := by
  intro s t h hstep
  rcases handled_of_step hstep with rfl | ⟨e, rest, -, he⟩
  · exact h
  · have hs : (s.withSchedule rest).Inv := { h with }
    exact hs.of_handled he

end Sys2Proof.Machine
end

section
/-! The bytes of the layouts as numbers (spec/30_encoding.md R82 to R84, R93): packing is a sum of shifted fields, a field
is a quotient or a remainder, and the two are inverse to each other. -/

namespace Sys2Proof

/-! ## Packing (R82 to R84) -/

/-- Two parts of a byte that do not overlap: the `or` of the packing rules is a sum. -/
theorem toNat_shiftLeft_or {hi lo : Byte} {k : Nat} (hhi : hi.toNat * 2 ^ k < 256) (hlo : lo.toNat < 2 ^ k) :
    (hi <<< k ||| lo).toNat = hi.toNat * 2 ^ k + lo.toNat := by
  rw [BitVec.toNat_or, BitVec.toNat_shiftLeft, Nat.shiftLeft_eq, Nat.mod_eq_of_lt (by simpa using hhi),
    ← Nat.shiftLeft_eq, Nat.shiftLeft_add_eq_or_of_lt hlo]

@[simp] theorem bitByte_toNat (b : Bool) : (bitByte b).toNat = b.toNat := by cases b <;> rfl

theorem headerByte1_toNat (dest : StationId) (bc type : Bool) :
    (headerByte1 dest bc type).toNat = dest.toNat * 4 + bc.toNat * 2 + type.toNat := by
  have hdest := dest.isLt
  have hbc := bc.toNat_lt
  have htype := type.toNat_lt
  have hflags : (bitByte bc <<< 1 ||| bitByte type).toNat = bc.toNat * 2 + type.toNat := by
    rw [toNat_shiftLeft_or] <;> simp only [bitByte_toNat] <;> omega
  have hwide : (dest.setWidth 8).toNat = dest.toNat := BitVec.toNat_setWidth_of_le (by decide)
  rw [headerByte1, BitVec.or_assoc, toNat_shiftLeft_or] <;> omega

theorem headerByte2_toNat (src : StationId) (ctr : BitVec 2) :
    (headerByte2 src ctr).toNat = src.toNat * 4 + ctr.toNat := by
  have hsrc := src.isLt
  have hctr := ctr.isLt
  have hwide : (src.setWidth 8).toNat = src.toNat := BitVec.toNat_setWidth_of_le (by decide)
  have hwide' : (ctr.setWidth 8).toNat = ctr.toNat := BitVec.toNat_setWidth_of_le (by decide)
  rw [headerByte2, toNat_shiftLeft_or] <;> omega

theorem commandByte_toNat (cmd len : BitVec 4) : (commandByte cmd len).toNat = cmd.toNat * 16 + len.toNat := by
  have hcmd := cmd.isLt
  have hlen := len.isLt
  have hwide (x : BitVec 4) : (x.setWidth 8).toNat = x.toNat := BitVec.toNat_setWidth_of_le (by decide)
  rw [commandByte, toNat_shiftLeft_or] <;> simp only [hwide] <;> omega

/-! ## Field extraction (R93) -/

theorem destOf_toNat (b : Byte) : (destOf b).toNat = b.toNat / 4 := by
  have := b.isLt
  simp only [destOf, BitVec.extractLsb'_toNat, Nat.shiftRight_eq_div_pow]
  omega

theorem bcOf_toNat (b : Byte) : (bcOf b).toNat = b.toNat / 2 % 2 := Nat.toNat_testBit b.toNat 1

theorem typeOf_toNat (b : Byte) : (typeOf b).toNat = b.toNat % 2 := by
  rw [typeOf, BitVec.getLsbD, Nat.toNat_testBit, pow_zero, Nat.div_one]

theorem srcOf_toNat (b : Byte) : (srcOf b).toNat = b.toNat / 4 := destOf_toNat b

theorem ctrOf_toNat (b : Byte) : (ctrOf b).toNat = b.toNat % 4 := by
  simp [ctrOf]

theorem cmdOf_toNat (b : Byte) : (cmdOf b).toNat = b.toNat / 16 := by
  have := b.isLt
  simp only [cmdOf, BitVec.extractLsb'_toNat, Nat.shiftRight_eq_div_pow]
  omega

theorem lenOf_toNat (b : Byte) : (lenOf b).toNat = b.toNat % 16 := by
  simp [lenOf]

/-! ## The fields of a packed byte -/

theorem bool_eq_of_toNat_eq {a b : Bool} (h : a.toNat = b.toNat) : a = b := by
  revert a b
  decide

@[simp] theorem destOf_headerByte1 (dest : StationId) (bc type : Bool) : destOf (headerByte1 dest bc type) = dest := by
  have hbc := bc.toNat_lt
  have htype := type.toNat_lt
  apply BitVec.eq_of_toNat_eq
  rw [destOf_toNat, headerByte1_toNat]
  omega

@[simp] theorem bcOf_headerByte1 (dest : StationId) (bc type : Bool) : bcOf (headerByte1 dest bc type) = bc := by
  have hbc := bc.toNat_lt
  have htype := type.toNat_lt
  apply bool_eq_of_toNat_eq
  rw [bcOf_toNat, headerByte1_toNat]
  omega

@[simp] theorem typeOf_headerByte1 (dest : StationId) (bc type : Bool) : typeOf (headerByte1 dest bc type) = type := by
  have htype := type.toNat_lt
  apply bool_eq_of_toNat_eq
  rw [typeOf_toNat, headerByte1_toNat]
  omega

@[simp] theorem srcOf_headerByte2 (src : StationId) (ctr : BitVec 2) : srcOf (headerByte2 src ctr) = src := by
  have hctr := ctr.isLt
  apply BitVec.eq_of_toNat_eq
  rw [srcOf_toNat, headerByte2_toNat]
  omega

@[simp] theorem ctrOf_headerByte2 (src : StationId) (ctr : BitVec 2) : ctrOf (headerByte2 src ctr) = ctr := by
  have hctr := ctr.isLt
  apply BitVec.eq_of_toNat_eq
  rw [ctrOf_toNat, headerByte2_toNat]
  omega

@[simp] theorem cmdOf_commandByte (cmd len : BitVec 4) : cmdOf (commandByte cmd len) = cmd := by
  have hlen := len.isLt
  apply BitVec.eq_of_toNat_eq
  rw [cmdOf_toNat, commandByte_toNat]
  omega

@[simp] theorem lenOf_commandByte (cmd len : BitVec 4) : lenOf (commandByte cmd len) = len := by
  have hlen := len.isLt
  apply BitVec.eq_of_toNat_eq
  rw [lenOf_toNat, commandByte_toNat]
  omega

/-! ## Every byte is the packing of its fields -/

theorem headerByte1_fields (b : Byte) : headerByte1 (destOf b) (bcOf b) (typeOf b) = b := by
  apply BitVec.eq_of_toNat_eq
  rw [headerByte1_toNat, destOf_toNat, bcOf_toNat, typeOf_toNat]
  omega

theorem headerByte2_fields (b : Byte) : headerByte2 (srcOf b) (ctrOf b) = b := by
  apply BitVec.eq_of_toNat_eq
  rw [headerByte2_toNat, srcOf_toNat, ctrOf_toNat]
  omega

theorem commandByte_fields (b : Byte) : commandByte (cmdOf b) (lenOf b) = b := by
  apply BitVec.eq_of_toNat_eq
  rw [commandByte_toNat, cmdOf_toNat, lenOf_toNat]
  omega

/-- Settles O2: packing is a sum of fields, and quotient and remainder give the byte back. -/
theorem headerAndCommandBytesAsNumbers : Obligations.HeaderAndCommandBytesAsNumbers :=
  ⟨headerByte1_toNat, headerByte2_toNat, commandByte_toNat, headerByte1_fields, headerByte2_fields,
    commandByte_fields⟩

end Sys2Proof
end

section
/-! The decoders on every list of bytes (spec/40_codec.md R119, R120), and on the layouts that the encoder writes: decode
after encode is the identity (spec/30_encoding.md R80 to R95). -/

namespace Sys2Proof

/-! ## The decoders, case by case (R119, R120) -/

theorem decodeHeaderBytes_of_short (p : Params) {bs : List Byte} (h : bs.length < 3) :
    decodeHeaderBytes p bs = .error .short := by
  match bs, h with
  | [], _ | [_], _ | [_, _], _ => rfl

theorem decodeHeaderBytes_of_ne_marker {p : Params} {b0 : Byte} (h : b0 ≠ p.marker) (b1 b2 : Byte) (tail : List Byte) :
    decodeHeaderBytes p (b0 :: b1 :: b2 :: tail) = .error .noMarker := if_neg h

theorem decodeHeaderBytes_marker (p : Params) (b1 b2 : Byte) (tail : List Byte) :
    decodeHeaderBytes p (p.marker :: b1 :: b2 :: tail) = .ok ⟨destOf b1, bcOf b1, typeOf b1, srcOf b2, ctrOf b2⟩ :=
  if_pos rfl

/-- `decodeFrame` reads the header first, and its errors are the header's (R120). -/
theorem decodeFrameBytes_of_header_error {p : Params} {bs : List Byte} {k : DecodeErrorKind}
    (h : decodeHeaderBytes p bs = .error k) : decodeFrameBytes p bs = .error k := by
  simp only [decodeFrameBytes, h]

/-- Format H: three bytes and no more. -/
theorem decodeFrameBytes_headerOnly (p : Params) {b1 : Byte} (ht : typeOf b1 = false) (b2 : Byte) (tail : List Byte) :
    decodeFrameBytes p (p.marker :: b1 :: b2 :: tail) =
      if tail = [] then .ok (.headerOnly ⟨destOf b1, bcOf b1, srcOf b2, ctrOf b2⟩) else .error .length := by
  simp [decodeFrameBytes, decodeHeaderBytes_marker, ht]

/-- Format C without its command byte. -/
theorem decodeFrameBytes_no_commandByte (p : Params) {b1 : Byte} (ht : typeOf b1 = true) (b2 : Byte) :
    decodeFrameBytes p [p.marker, b1, b2] = .error .short := by
  simp [decodeFrameBytes, decodeHeaderBytes_marker, ht]

/-- Format C: as many payload bytes as the command byte says. -/
theorem decodeFrameBytes_command (p : Params) {b1 : Byte} (ht : typeOf b1 = true) (b2 b3 : Byte)
    (payload : List Byte) :
    decodeFrameBytes p (p.marker :: b1 :: b2 :: b3 :: payload) =
      if payload.length = (lenOf b3).toNat then
        .ok (.command ⟨⟨destOf b1, bcOf b1, srcOf b2, ctrOf b2⟩, cmdOf b3, payload⟩)
      else .error .length := by
  simp [decodeFrameBytes, decodeHeaderBytes_marker, ht]

/-! ## A frame's layout spells the frame -/

/-- A payload that fits has its length in the nibble (R84, R85). -/
theorem payloadOk_nibble {d : List Byte} (h : payloadOk d = true) : (BitVec.ofNat 4 d.length).toNat = d.length := by
  have hlen : d.length ≤ 15 := of_decide_eq_true h
  rw [BitVec.toNat_ofNat, Nat.mod_eq_of_lt (by omega)]

theorem frameLayout_headerOnly (p : Params) (h : Header) :
    frameLayout p (.headerOnly h) = [p.marker, headerByte1 h.dest h.bc false, headerByte2 h.src h.ctr] := rfl

theorem frameLayout_command (p : Params) (f : CommandFrame) :
    frameLayout p (.command f) =
      p.marker :: headerByte1 f.hdr.dest f.hdr.bc true :: headerByte2 f.hdr.src f.hdr.ctr ::
        commandByte f.cmd (BitVec.ofNat 4 f.payload.length) :: f.payload := rfl

theorem decodeFrameBytes_frameLayout (p : Params) {f : Frame} (h : f.wellFormed = true) :
    decodeFrameBytes p (frameLayout p f) = .ok f := by
  cases f with
  | headerOnly hdr =>
    simp [frameLayout_headerOnly, decodeFrameBytes_headerOnly]
  | command f =>
    have hlen : f.payload.length = (lenOf (commandByte f.cmd (BitVec.ofNat 4 f.payload.length))).toNat := by
      rw [lenOf_commandByte, payloadOk_nibble h]
    rw [frameLayout_command, decodeFrameBytes_command p (typeOf_headerByte1 _ _ _), if_pos hlen]
    simp

/-! ## The two kinds of instruction (R94, R276) -/

/-- A frame kind is encoded as its frame's layout, and is the instruction that its frame selects. -/
theorem encode_of_frame? {i : Instr} {f : Frame} (h : i.frame? = some f) (p : Params) :
    encode p i = .wire (frameLayout p f) ∧ Instr.ofFrame f = i ∧ f.wellFormed = i.wellFormed := by
  cases i <;> cases h <;> exact ⟨rfl, rfl, rfl⟩

/-- A host operation is encoded as the request that selects it, with its own operands. -/
theorem encode_of_not_frame? {i : Instr} (h : i.frame? = none) (p : Params) :
    ∃ r, encode p i = .host r ∧ decodeHost r = .ok i := by
  cases i <;> cases h <;> exact ⟨_, rfl, rfl⟩

/-- Settles O1: a frame kind through its frame's layout, a host operation through its request. -/
theorem decodeOfEncodeIsTheInstruction : Obligations.DecodeOfEncodeIsTheInstruction := by
  intro p i hwf
  cases hf : i.frame? with
  | some f =>
    obtain ⟨henc, hof, hwf'⟩ := encode_of_frame? hf p
    have hlayout := decodeFrameBytes_frameLayout p (hwf'.trans hwf)
    simp only [henc, decode, decodeWire, hlayout, hof]
  | none =>
    obtain ⟨r, henc, hdec⟩ := encode_of_not_frame? hf p
    rw [henc]
    exact hdec

/-! ## The opcode table's words (R105) -/

/-- A table word that stands for an instruction's encoding decodes to that instruction (log entry 25). -/
theorem decodeTableWord_of_encode {nbits w : Nat} {i : Instr} (hwf : i.wellFormed = true)
    (h : encodedOfTableWord Params.profile nbits w = encode Params.profile i) : decodeTableWord nbits w = some i := by
  simp only [decodeTableWord, h, decodeOfEncodeIsTheInstruction _ i hwf]

/-- Settles O3: five of the words are encodings, and the sixth is a code past the last operation. -/
theorem tableWordsDecode : Obligations.TableWordsDecode :=
  ⟨decodeTableWord_of_encode rfl rfl, decodeTableWord_of_encode rfl rfl, decodeTableWord_of_encode rfl rfl,
    decodeTableWord_of_encode rfl rfl, decodeTableWord_of_encode rfl rfl, rfl⟩

end Sys2Proof
end

section
/-! The lengths of a frame's images (spec/30_encoding.md R88 to R91). -/

namespace Sys2Proof.Machine

open Sys2Proof

/-! ## The raw image (R88) -/

@[simp] theorem chkBytes_length (p : Params) (c : ChkReg) : (chkBytes p c).length = p.chkWidth.bytes := by
  cases hw : p.chkWidth <;> cases ho : p.chkOrder <;> simp [chkBytes, hw, ho, ChkWidth.bytes]

theorem rawImage_headerOnly_length (p : Params) (h : Header) :
    (rawImage p (frameLayout p (.headerOnly h))).length = 3 + p.chkWidth.bytes := by
  simp only [rawImage, frameLayout_headerOnly, List.length_append, List.length_cons, List.length_nil, chkBytes_length]

theorem rawImage_command_length (p : Params) (f : CommandFrame) :
    (rawImage p (frameLayout p (.command f))).length = 4 + f.payload.length + p.chkWidth.bytes := by
  simp only [rawImage, frameLayout_command, List.length_append, List.length_cons, chkBytes_length]
  omega

/-! ## The wire image (R89, R116) -/

/-- The bytes that stuffing escapes (R89). -/
def isStuffed (p : Params) (b : Byte) : Bool := decide (b = p.marker ∨ b = p.esc)

theorem stuff_length (p : Params) (b : Byte) : (stuff p b).length = 1 + if isStuffed p b then 1 else 0 := by
  by_cases hb : b = p.marker ∨ b = p.esc <;> simp [stuff, isStuffed, hb]

theorem stuffed_length (p : Params) (bs : List Byte) :
    (bs.flatMap (stuff p)).length = bs.length + bs.countP (isStuffed p) := by
  induction bs with
  | nil => rfl
  | cons b bs ih =>
    rw [List.flatMap_cons, List.length_append, ih, stuff_length, List.countP_cons, List.length_cons]
    omega

/-- Every image holds its marker, so what is stuffed is one byte shorter than the raw image. -/
theorem wireImage_length (p : Params) (f : Frame) :
    (wireImage p (frameLayout p f)).length =
      (rawImage p (frameLayout p f)).length + ((rawImage p (frameLayout p f)).drop 1).countP (isStuffed p) := by
  have hraw : 1 ≤ (rawImage p (frameLayout p f)).length := by
    cases f with
    | headerOnly h => rw [rawImage_headerOnly_length]; omega
    | command f => rw [rawImage_command_length]; omega
  rw [wireImage, List.length_cons, stuffed_length, List.length_drop]
  omega

/-- At best no byte is escaped, at worst every byte but the marker (R91). -/
theorem wireImage_length_bounds (p : Params) (f : Frame) :
    (rawImage p (frameLayout p f)).length ≤ (wireImage p (frameLayout p f)).length ∧
    (wireImage p (frameLayout p f)).length ≤
      (rawImage p (frameLayout p f)).length + ((rawImage p (frameLayout p f)).length - 1) := by
  have hcount : ((rawImage p (frameLayout p f)).drop 1).countP (isStuffed p) ≤ _ := List.countP_le_length
  rw [List.length_drop] at hcount
  rw [wireImage_length]
  omega

/-- Settles O6: the bounds follow from the raw length and from how many bytes can be escaped. -/
theorem imageLengths : Obligations.ImageLengths := by
  intro p f
  refine ⟨?_, wireImage_length p f, fun hw hwf => ?_⟩
  · cases f with
    | headerOnly h => exact rawImage_headerOnly_length p h
    | command c => exact rawImage_command_length p c
  · have hwire := wireImage_length_bounds p f
    have hchk : p.chkWidth.bytes = 2 := by rw [hw]; rfl
    cases f with
    | headerOnly h =>
      have hraw := rawImage_headerOnly_length p h
      dsimp only
      omega
    | command c =>
      have hraw := rawImage_command_length p c
      have hlen : c.payload.length ≤ 15 := of_decide_eq_true hwf
      dsimp only
      omega

end Sys2Proof.Machine
end

section
/-! Which host operands are in range (spec/30_encoding.md R102, spec/44_host_interface.md R262, spec/40_codec.md R111, R112). -/

namespace Sys2Proof.Machine

open Sys2Proof

/-! ## What each check accepts -/

theorem headerError_eq_none_iff (h : HostHeader) :
    headerError h = none ↔ h.dest ≤ 63 ∧ h.src ≤ 63 ∧ h.ctr ≤ 3 ∧ h.bc ≤ 1 ∧ h.type ≤ 1 := by
  unfold headerError
  split_ifs <;> simp only [false_iff, true_iff] <;> omega

/-- What the body's check names, and that everything before it is in range (R112). -/
theorem bodyError_eq_some {cmd : Nat} {payload : List Nat} {e : EncodeField} (h : bodyError cmd payload = some e) :
    (e = .cmd ∧ 15 < cmd) ∨ (e = .length ∧ cmd ≤ 15 ∧ 15 < payload.length) ∨
      (e = .payload ∧ cmd ≤ 15 ∧ payload.length ≤ 15 ∧ ∃ b ∈ payload, 255 < b) := by
  unfold bodyError at h
  split_ifs at h with hc hl hb <;> cases h
  · exact .inl ⟨rfl, hc⟩
  · exact .inr (.inl ⟨rfl, by omega, hl⟩)
  · exact .inr (.inr ⟨rfl, by omega, by omega, by simpa using hb⟩)

theorem bodyError_eq_none_iff (cmd : Nat) (payload : List Nat) :
    bodyError cmd payload = none ↔ cmd ≤ 15 ∧ payload.length ≤ 15 ∧ ∀ b ∈ payload, b ≤ 255 := by
  unfold bodyError
  split_ifs <;> simp_all

theorem commandError_eq_none_iff (c : HostCommand) :
    commandError c = none ↔ bodyError c.cmd c.payload = none ∧ headerError ⟨c.dest, c.bc, 1, c.src, c.ctr⟩ = none := by
  unfold commandError
  split <;> simp_all

theorem encodeHeaderBytes_ok_iff (p : Params) (h : HostHeader) :
    (∃ bs, encodeHeaderBytes p h = .ok bs) ↔ headerError h = none := by
  unfold encodeHeaderBytes
  split <;> simp_all

theorem encodeCommandBytes_ok_iff (p : Params) (c : HostCommand) :
    (∃ bs, encodeCommandBytes p c = .ok bs) ↔ commandError c = none := by
  unfold encodeCommandBytes
  split <;> simp_all

/-! ## The host frame's check, field by field (R262) -/

/-- A valid frame passes the header's five tests and then the body's (R102). -/
theorem hostFrameError_eq_none_iff (f : HostFrame) :
    hostFrameError f = none ↔
      f.dest ≤ 63 ∧ f.src ≤ 63 ∧ f.ctr ≤ 3 ∧ f.bc ≤ 1 ∧ f.type = 1 ∧ bodyError f.cmd f.payload = none := by
  unfold hostFrameError
  split_ifs <;> simp_all

/-- Settles O34: each encoder's answer is its check's, and each check is a chain of comparisons in the rule's order. -/
theorem hostOperandsAreCheckedForRange : Obligations.HostOperandsAreCheckedForRange := by
  intro p h c f
  refine ⟨?_, ?_, ?_, fun e he => ?_⟩
  · rw [encodeHeaderBytes_ok_iff, headerError_eq_none_iff]
  · rw [encodeCommandBytes_ok_iff, commandError_eq_none_iff, bodyError_eq_none_iff, headerError_eq_none_iff]
    simp [and_assoc]
  · rw [hostFrameError_eq_none_iff, bodyError_eq_none_iff]
  · unfold hostFrameError at he
    split_ifs at he with hdest hsrc hctr hbc htype
    case neg =>
      have hhdr : f.dest ≤ 63 ∧ f.src ≤ 63 ∧ f.ctr ≤ 3 ∧ f.bc ≤ 1 ∧ f.type = 1 := by omega
      obtain ⟨hdest, hsrc, hctr, hbc, htype⟩ := hhdr
      rcases bodyError_eq_some he with ⟨rfl, hbody⟩ | ⟨rfl, hbody⟩ | ⟨rfl, hbody⟩ <;>
        exact ⟨hdest, hsrc, hctr, hbc, htype, hbody⟩
    all_goals
      cases he
      dsimp only
      omega

end Sys2Proof.Machine
end

section
/-! The codec operations of the host port (spec/44_host_interface.md R270 to R273): each answers the codec's function. -/

namespace Sys2Proof.Machine

open Sys2Proof

section
variable {s : State}

theorem exec_encodeHeader_ok {h : HostHeader} {bs : List Byte} (hr : encodeHeaderBytes s.params h = .ok bs) :
    exec (.encodeHeader h) s = .next (s.reply 0x09#8 .ok (.bytes bs)) := by
  simp only [exec, execEncodeHeader, hr, replyEncoded]

theorem exec_encodeHeader_error {h : HostHeader} {e : EncodeField} (hr : encodeHeaderBytes s.params h = .error e) :
    exec (.encodeHeader h) s = .next (s.reply 0x09#8 (.encodeError e) .none) := by
  simp only [exec, execEncodeHeader, hr, replyEncoded]

theorem exec_encodeCommandFrame_ok {c : HostCommand} {bs : List Byte}
    (hr : encodeCommandBytes s.params c = .ok bs) :
    exec (.encodeCommandFrame c) s = .next (s.reply 0x0A#8 .ok (.bytes bs)) := by
  simp only [exec, execEncodeCommandFrame, hr, replyEncoded]

theorem exec_encodeCommandFrame_error {c : HostCommand} {e : EncodeField}
    (hr : encodeCommandBytes s.params c = .error e) :
    exec (.encodeCommandFrame c) s = .next (s.reply 0x0A#8 (.encodeError e) .none) := by
  simp only [exec, execEncodeCommandFrame, hr, replyEncoded]

theorem exec_decodeHeader_ok {bs : List Byte} {d : DecodedHeader} (hr : decodeHeaderBytes s.params bs = .ok d) :
    exec (.decodeHeader bs) s = .next (s.reply 0x0B#8 .ok (.header d)) := by
  simp only [exec, execDecodeHeader, hr]

theorem exec_decodeHeader_error {bs : List Byte} {k : DecodeErrorKind}
    (hr : decodeHeaderBytes s.params bs = .error k) :
    exec (.decodeHeader bs) s = .next (s.reply 0x0B#8 (.decodeError k) .none) := by
  simp only [exec, execDecodeHeader, hr]

theorem exec_decodeFrame_ok {bs : List Byte} {f : Frame} (hr : decodeFrameBytes s.params bs = .ok f) :
    exec (.decodeFrame bs) s = .next (s.reply 0x0C#8 .ok (.frame f)) := by
  simp only [exec, execDecodeFrame, hr]

theorem exec_decodeFrame_error {bs : List Byte} {k : DecodeErrorKind} (hr : decodeFrameBytes s.params bs = .error k) :
    exec (.decodeFrame bs) s = .next (s.reply 0x0C#8 (.decodeError k) .none) := by
  simp only [exec, execDecodeFrame, hr]

end

/-- Settles O38: what each operation answers, then what each decoder gives on every list of bytes. -/
theorem codecOperationsAnswerTheCodec : Obligations.CodecOperationsAnswerTheCodec := by
  intro p b0 b1 b2 tail
  refine ⟨fun h c bs s => ⟨?_, ?_, ?_, ?_⟩, fun bs hbs => ?_, fun hb0 => ?_, ?_, ?_, ?_, ?_, ?_⟩
  · rintro (e | out) hr
    exacts [exec_encodeHeader_error hr, exec_encodeHeader_ok hr]
  · rintro (e | out) hr
    exacts [exec_encodeCommandFrame_error hr, exec_encodeCommandFrame_ok hr]
  · rintro (k | d) hr
    exacts [exec_decodeHeader_error hr, exec_decodeHeader_ok hr]
  · rintro (k | f) hr
    exacts [exec_decodeFrame_error hr, exec_decodeFrame_ok hr]
  · have hshort := decodeHeaderBytes_of_short p hbs
    exact ⟨hshort, decodeFrameBytes_of_header_error hshort⟩
  · have hmarker := decodeHeaderBytes_of_ne_marker hb0 b1 b2 tail
    exact ⟨hmarker, decodeFrameBytes_of_header_error hmarker⟩
  · exact decodeHeaderBytes_marker p b1 b2 tail
  · exact ⟨destOf_toNat b1, bcOf_toNat b1, typeOf_toNat b1, srcOf_toNat b2, ctrOf_toNat b2⟩
  · exact fun ht => decodeFrameBytes_headerOnly p ht b2 tail
  · exact fun ht => decodeFrameBytes_no_commandByte p ht b2
  · exact fun b3 ht => decodeFrameBytes_command p ht b2 b3 tail

end Sys2Proof.Machine
end

section
/-! Stuffing (spec/30_encoding.md R89, spec/40_codec.md R115, R116, R122): what each byte is sent as, that the marker is
never part of it, and that `unstuff` inverts it; then the codec's round trips (R121). -/

namespace Sys2Proof.Machine

open Sys2Proof

/-! ## The bytes a byte is sent as (R89) -/

theorem Params.esc_ne_marker_of_wellFormed {p : Params} (h : p.wellFormed = true) : p.esc ≠ p.marker := by
  simp only [Params.wellFormed, Bool.and_eq_true, decide_eq_true_eq] at h
  tauto

/-- A plain byte is sent as it is, the marker and the escape byte as the escape byte and their literal. -/
theorem stuff_cases {p : Params} (hp : p.wellFormed = true) (v : Byte) :
    (v ≠ p.marker ∧ v ≠ p.esc ∧ stuff p v = [v]) ∨
    (v = p.marker ∧ stuff p v = [p.esc, p.markerLit]) ∨
    (v = p.esc ∧ stuff p v = [p.esc, p.escLit]) := by
  have hne := Params.esc_ne_marker_of_wellFormed hp
  by_cases hm : v = p.marker
  · exact .inr (.inl ⟨hm, by simp [stuff, escEnc, hm]⟩)
  by_cases he : v = p.esc
  · exact .inr (.inr ⟨he, by simp [stuff, escEnc, he, hne]⟩)
  · exact .inl ⟨hm, he, by simp [stuff, hm, he]⟩

/-! ## The marker stands only at the front (R116) -/

theorem marker_notMem_stuff {p : Params} (hp : p.wellFormed = true) (v : Byte) : p.marker ∉ stuff p v := by
  have hesc := Params.esc_ne_marker_of_wellFormed hp
  obtain ⟨-, hm, he⟩ := Params.literals_of_wellFormed hp
  rcases stuff_cases hp v with ⟨hv, -, h⟩ | ⟨-, h⟩ | ⟨-, h⟩ <;> rw [h]
  · simp [hv.symm]
  · simp [hesc.symm, hm.symm]
  · simp [hesc.symm, he.symm]

/-- Settles O5: everything after byte 0 is stuffed, and no stuffed byte holds the marker. -/
theorem markerOnlyAtTheFrontOfAWireImage : Obligations.MarkerOnlyAtTheFrontOfAWireImage := by
  intro p layout hp
  refine ⟨rfl, fun hmem => ?_⟩
  obtain ⟨v, -, hv⟩ := List.mem_flatMap.1 hmem
  exact marker_notMem_stuff hp v hv

/-! ## `unstuff` inverts the stuffing (R121, R122) -/

theorem unstuffBody_plain {p : Params} {v : Byte} (hm : v ≠ p.marker) (he : v ≠ p.esc) {tail out : List Byte}
    (h : unstuffBody p tail = .ok out) : unstuffBody p (v :: tail) = .ok (v :: out) := by
  rw [unstuffBody.eq_def]
  simp only [hm, he, h, if_false]

/-- What the bytes of one stuffed byte contribute to the body loop. -/
theorem unstuffBody_stuff_append {p : Params} (hp : p.wellFormed = true) (v : Byte) {tail out : List Byte}
    (h : unstuffBody p tail = .ok out) : unstuffBody p (stuff p v ++ tail) = .ok (v :: out) := by
  have hesc := Params.esc_ne_marker_of_wellFormed hp
  obtain ⟨hlit, -, -⟩ := Params.literals_of_wellFormed hp
  rcases stuff_cases hp v with ⟨hm, he, hs⟩ | ⟨rfl, hs⟩ | ⟨rfl, hs⟩ <;> rw [hs]
  · exact unstuffBody_plain hm he h
  · simp [unstuffBody, hesc, isEscLiteral, escDec, h]
  · simp [unstuffBody, hesc, isEscLiteral, escDec, hlit.symm, h]

theorem unstuffBody_flatMap_stuff {p : Params} (hp : p.wellFormed = true) (vs : List Byte) :
    unstuffBody p (vs.flatMap (stuff p)) = .ok vs := by
  induction vs with
  | nil => simp [unstuffBody]
  | cons v vs ih => rw [List.flatMap_cons, unstuffBody_stuff_append hp v ih]

/-- The wire image of a layout that begins with the marker (R116). -/
theorem wireImage_marker_cons (p : Params) (body : List Byte) :
    wireImage p (p.marker :: body) =
      p.marker :: (body ++ chkBytes p (checksum p (p.marker :: body))).flatMap (stuff p) := rfl

theorem unstuff_wireImage {p : Params} (hp : p.wellFormed = true) (body : List Byte) :
    unstuff p (wireImage p (p.marker :: body)) =
      some (.ok (p.marker :: body ++ chkBytes p (checksum p (p.marker :: body)))) := by
  rw [wireImage_marker_cons]
  simp only [unstuff, unstuffBody_flatMap_stuff hp, if_true, List.cons_append]

/-! ## The host's fields come back (R111, R112, R121) -/

/-- A field in its range is its bits on the wire. -/
theorem toNat_ofNat_of_le {w n m : Nat} (h : n ≤ m) (hm : m < 2 ^ w) : (BitVec.ofNat w n).toNat = n := by
  rw [BitVec.toNat_ofNat, Nat.mod_eq_of_lt (by omega)]

theorem toNat_decide_eq_one {n : Nat} (h : n ≤ 1) : (decide (n = 1)).toNat = n := by
  interval_cases n <;> rfl

/-- The bits of a checked header operand are its numbers. -/
theorem headerOfHost_toNat {dest bc src ctr : Nat} (hdest : dest ≤ 63) (hsrc : src ≤ 63) (hctr : ctr ≤ 3)
    (hbc : bc ≤ 1) :
    (headerOfHost dest bc src ctr).dest.toNat = dest ∧ (headerOfHost dest bc src ctr).bc.toNat = bc ∧
      (headerOfHost dest bc src ctr).src.toNat = src ∧ (headerOfHost dest bc src ctr).ctr.toNat = ctr :=
  ⟨toNat_ofNat_of_le hdest (by decide), toNat_decide_eq_one hbc, toNat_ofNat_of_le hsrc (by decide),
    toNat_ofNat_of_le hctr (by decide)⟩

theorem map_toNat_map_ofNat {payload : List Nat} (h : ∀ b ∈ payload, b ≤ 255) :
    (payload.map (BitVec.ofNat 8)).map BitVec.toNat = payload := by
  rw [List.map_map]
  exact (List.map_congr_left fun b hb => toNat_ofNat_of_le (h b hb) (by decide)).trans (List.map_id payload)

theorem decodeHeaderBytes_headerLayout (p : Params) (h : Header) (type : Bool) :
    decodeHeaderBytes p (headerLayout p h type) = .ok ⟨h.dest, h.bc, type, h.src, h.ctr⟩ := by
  simp [headerLayout, decodeHeaderBytes_marker]

/-- A header that the encoder accepts decodes to the same fields (R121). -/
theorem decodeHeaderBytes_of_encode {p : Params} {h : HostHeader} {bs : List Byte}
    (henc : encodeHeaderBytes p h = .ok bs) :
    ∃ d, decodeHeaderBytes p bs = .ok d ∧ d.dest.toNat = h.dest ∧ d.bc.toNat = h.bc ∧ d.type.toNat = h.type ∧
      d.src.toNat = h.src ∧ d.ctr.toNat = h.ctr := by
  have hvalid : headerError h = none := (encodeHeaderBytes_ok_iff p h).1 ⟨bs, henc⟩
  obtain ⟨hdest, hsrc, hctr, hbc, htype⟩ := (headerError_eq_none_iff h).1 hvalid
  obtain ⟨hdest', hbc', hsrc', hctr'⟩ := headerOfHost_toNat hdest hsrc hctr hbc
  simp only [encodeHeaderBytes, hvalid, Except.ok.injEq] at henc
  exact ⟨_, henc ▸ decodeHeaderBytes_headerLayout p _ _, hdest', hbc', toNat_decide_eq_one htype, hsrc', hctr'⟩

/-- A command frame that the encoder accepts decodes to the same fields (R121). -/
theorem decodeFrameBytes_of_encode {p : Params} {c : HostCommand} {bs : List Byte}
    (henc : encodeCommandBytes p c = .ok bs) :
    ∃ f, decodeFrameBytes p bs = .ok (.command f) ∧ f.hdr.dest.toNat = c.dest ∧ f.hdr.bc.toNat = c.bc ∧
      f.hdr.src.toNat = c.src ∧ f.hdr.ctr.toNat = c.ctr ∧ f.cmd.toNat = c.cmd ∧
      f.payload.map BitVec.toNat = c.payload := by
  have hvalid : commandError c = none := (encodeCommandBytes_ok_iff p c).1 ⟨bs, henc⟩
  obtain ⟨hbody, hheader⟩ := (commandError_eq_none_iff c).1 hvalid
  obtain ⟨hcmd, hlen, hbytes⟩ := (bodyError_eq_none_iff _ _).1 hbody
  obtain ⟨hdest, hsrc, hctr, hbc, -⟩ := (headerError_eq_none_iff _).1 hheader
  obtain ⟨hdest', hbc', hsrc', hctr'⟩ := headerOfHost_toNat hdest hsrc hctr hbc
  have hwf : (Frame.command (frameOfCommand c)).wellFormed = true :=
    decide_eq_true (by simpa [frameOfCommand] using hlen)
  simp only [encodeCommandBytes, hvalid, Except.ok.injEq] at henc
  exact ⟨frameOfCommand c, henc ▸ decodeFrameBytes_frameLayout p hwf, hdest', hbc', hsrc', hctr',
    toNat_ofNat_of_le hcmd (by decide), map_toNat_map_ofNat hbytes⟩

/-- Settles O4: each decoder on what its encoder wrote, and `unstuff` byte by byte over the stuffed image. -/
theorem codecRoundTrips : Obligations.CodecRoundTrips :=
  fun _ hp => ⟨fun _ _ => decodeHeaderBytes_of_encode, fun _ _ => decodeFrameBytes_of_encode, unstuff_wireImage hp⟩

end Sys2Proof.Machine
end

section
/-! The default checksum (spec/40_codec.md R117, R118): a register that shifts right loses nothing, so that the only
register and byte that lead to zero are the ones whose exclusive or is zero. -/

namespace Sys2Proof.Machine

open Sys2Proof

/-! ## One shift and eight (R117) -/

/-- With the polynomial's top bit set, that bit of the result says which bit was shifted out. -/
theorem reflectedShift_injective {poly : ChkReg} (hpoly : poly.getLsbD 15 = true) :
    Function.Injective (reflectedShift poly) := by
  have htop (c : ChkReg) : (reflectedShift poly c).getLsbD 15 = c.getLsbD 0 := by
    unfold reflectedShift
    split <;> rename_i hc
    · rw [hc, BitVec.getLsbD_xor, hpoly, BitVec.getLsbD_ushiftRight, BitVec.getLsbD_of_ge c _ (by decide)]; rfl
    · rw [eq_false_of_ne_true hc, BitVec.getLsbD_ushiftRight, BitVec.getLsbD_of_ge c _ (by decide)]
  intro c d h
  have hlow : c.getLsbD 0 = d.getLsbD 0 := by rw [← htop c, h, htop d]
  have hshift : c >>> 1 = d >>> 1 := by
    unfold reflectedShift at h
    rw [hlow] at h
    split at h
    · exact (BitVec.xor_left_inj poly).1 h
    · exact h
  refine BitVec.eq_of_getLsbD_eq fun i _ => ?_
  cases i with
  | zero => exact hlow
  | succ i => simpa [Nat.add_comm] using congrArg (·.getLsbD i) hshift

theorem repeat_injective {α : Type} {f : α → α} (hf : Function.Injective f) (n : Nat) :
    Function.Injective (Nat.repeat f n) := by
  induction n with
  | zero => exact Function.injective_id
  | succ n ih => exact hf.comp ih

/-- A register whose low bits are clear moves right by that many places and meets no polynomial. -/
theorem repeat_reflectedShift_shiftLeft (poly c : ChkReg) {n : Nat} (hc : c.toNat * 2 ^ n < 2 ^ 16) :
    Nat.repeat (reflectedShift poly) n (c <<< n) = c := by
  induction n generalizing c with
  | zero => simp [Nat.repeat]
  | succ n ih =>
    have hn : (2 * c.toNat) * 2 ^ n < 2 ^ 16 := by
      rwa [pow_succ, Nat.mul_comm (2 ^ n), ← Nat.mul_assoc, Nat.mul_comm c.toNat] at hc
    have hlow : 2 * c.toNat < 2 ^ 16 := Nat.lt_of_le_of_lt (Nat.le_mul_of_pos_right _ (by positivity)) hn
    have hone : (c <<< 1).toNat = 2 * c.toNat := by
      rw [BitVec.toNat_shiftLeft, Nat.shiftLeft_eq, Nat.mod_eq_of_lt] <;> omega
    calc Nat.repeat (reflectedShift poly) (n + 1) (c <<< (n + 1))
      _ = reflectedShift poly (Nat.repeat (reflectedShift poly) n (c <<< 1 <<< n)) := by
          rw [Nat.add_comm, BitVec.shiftLeft_add, Nat.add_comm]; rfl
      _ = reflectedShift poly (c <<< 1) := by rw [ih (c <<< 1) (by rwa [hone])]
      _ = c <<< 1 >>> 1 := by simp [reflectedShift]
      _ = c := by
          apply BitVec.eq_of_toNat_eq
          rw [BitVec.toNat_ushiftRight, hone, Nat.shiftRight_eq_div_pow]
          omega

/-! ## Bytes through the default register (R118) -/

theorem kermitStep_eq_setWidth_iff (c : ChkReg) (b0 b1 : Byte) :
    kermitStep c b0 = b1.setWidth 16 ↔ c ^^^ b0.setWidth 16 = b1.setWidth 16 <<< 8 := by
  have hinj := repeat_injective (reflectedShift_injective (poly := 0x8408#16) (by decide)) 8
  have hb1 := b1.isLt
  have hshift : Nat.repeat (reflectedShift 0x8408#16) 8 (b1.setWidth 16 <<< 8) = b1.setWidth 16 :=
    repeat_reflectedShift_shiftLeft _ _ (by rw [BitVec.toNat_setWidth_of_le (by decide)]; omega)
  rw [kermitStep, reflectedStep]
  nth_rw 1 [← hshift]
  exact hinj.eq_iff

theorem kermitStep_eq_zero_iff (c : ChkReg) (b : Byte) : kermitStep c b = 0#16 ↔ c = b.setWidth 16 := by
  have h := kermitStep_eq_setWidth_iff c b 0#8
  simpa [BitVec.xor_eq_zero_iff] using h

/-- The low and the high byte as one value: no bit of one stands where the other's stand. -/
theorem setWidth_or_shiftLeft_eq_xor (b0 b1 : Byte) :
    b0.setWidth 16 ||| b1.setWidth 16 <<< 8 = b1.setWidth 16 <<< 8 ^^^ b0.setWidth 16 := by
  refine BitVec.eq_of_getLsbD_eq fun i hi => ?_
  by_cases h8 : i < 8
  · simp [h8, hi]
  · simp [h8, hi, BitVec.getLsbD_of_ge b0 i (by omega)]

/-- Two received bytes fold the register to zero exactly when they spell its value, low byte first (R118). -/
theorem foldl_kermitStep_pair_eq_zero_iff (c : ChkReg) (b0 b1 : Byte) :
    [b0, b1].foldl kermitStep c = 0#16 ↔ b0.setWidth 16 ||| b1.setWidth 16 <<< 8 = c := by
  calc [b0, b1].foldl kermitStep c = 0#16
    _ ↔ kermitStep c b0 = b1.setWidth 16 := kermitStep_eq_zero_iff _ b1
    _ ↔ c ^^^ b0.setWidth 16 = b1.setWidth 16 <<< 8 := kermitStep_eq_setWidth_iff c b0 b1
    _ ↔ b1.setWidth 16 <<< 8 ^^^ b0.setWidth 16 = c := by
        rw [← BitVec.xor_left_inj (b0.setWidth 16), BitVec.xor_assoc, BitVec.xor_self, BitVec.xor_zero]
        exact eq_comm
    _ ↔ _ := by rw [setWidth_or_shiftLeft_eq_xor]

/-- A register is its low byte and its high byte (R88, R148). -/
theorem lowByte_or_highByte (c : ChkReg) :
    (c.setWidth 8).setWidth 16 ||| ((c >>> 8).setWidth 8).setWidth 16 <<< 8 = c := by
  refine BitVec.eq_of_getLsbD_eq fun i hi => ?_
  by_cases h8 : i < 8
  · simp [h8, hi]
  · have hhigh : i - 8 < 8 ∧ 8 + (i - 8) = i := by omega
    simp [h8, hi, hhigh]

/-- Settles O7: the check value by evaluation, the residue and the comparison from the two-byte fold. -/
theorem defaultChecksumResidue : Obligations.DefaultChecksumResidue := by
  refine ⟨by decide +kernel, fun xs => ?_, foldl_kermitStep_pair_eq_zero_iff⟩
  rw [List.foldl_append]
  exact (foldl_kermitStep_pair_eq_zero_iff _ _ _).2 (lowByte_or_highByte _)

end Sys2Proof.Machine
end

section
/-! The receiver reads what the codec writes (spec/40_codec.md R116; spec/41_frame_reader.md R141 to R150): from every
receiver state the wire image of a frame is read quietly up to its last byte, and that byte hands the frame on. -/

namespace Sys2Proof.Machine

open Sys2Proof

/-! ## The checksum's bytes (R114, R148) -/

theorem chkTrunc_chkFinal (p : Params) (c : ChkReg) : chkTrunc p (chkFinal p c) = chkFinal p c := by
  simp only [chkFinal]
  cases hw : p.chkWidth <;> simp [chkTrunc, hw, BitVec.and_assoc]

theorem setWidth_setWidth_of_and {c : ChkReg} (h : c &&& 0x00FF#16 = c) : (c.setWidth 8).setWidth 16 = c := by
  apply BitVec.eq_of_toNat_eq
  have hlow : c.toNat % 256 = c.toNat := by
    rw [← Nat.and_two_pow_sub_one_eq_mod c.toNat 8]
    exact congrArg BitVec.toNat h
  have := c.isLt
  rw [BitVec.toNat_setWidth_of_le (by decide), BitVec.toNat_setWidth]
  omega

/-- The received checksum is the one whose bytes were sent, in either order. -/
theorem assemble_chkBytes {p : Params} {c : ChkReg} (h : chkTrunc p c = c) : assemble p (chkBytes p c) = c := by
  cases hw : p.chkWidth with
  | w8 =>
    have hlow : (c.setWidth 8).setWidth 16 = c := setWidth_setWidth_of_and (by simpa [chkTrunc, hw] using h)
    cases ho : p.chkOrder <;> simpa [assemble, chkBytes, hw, ho] using hlow
  | w16 =>
    have hpair := lowByte_or_highByte c
    rw [BitVec.or_comm] at hpair
    cases ho : p.chkOrder <;> simpa only [assemble, chkBytes, hw, ho, List.foldr_cons, List.foldr_nil,
      List.foldl_cons, List.foldl_nil, BitVec.zero_shiftLeft, BitVec.zero_or] using hpair

/-! ## Reading bytes that complete no frame -/

/-- The bytes of the wire lead from `r` to `r'` and none of them gives the controller anything. -/
def ReadsQuietly (p : Params) : List Byte → Receiver → Receiver → Prop
  | [], r, r' => r' = r
  | b :: bs, r, r' => ∃ m, receiveByte p b r = (m, .quiet) ∧ ReadsQuietly p bs m r'

theorem ReadsQuietly.append {p : Params} {xs ys : List Byte} {r m r' : Receiver} (hx : ReadsQuietly p xs r m)
    (hy : ReadsQuietly p ys m r') : ReadsQuietly p (xs ++ ys) r r' := by
  induction xs generalizing r with
  | nil => cases hx; exact hy
  | cons b xs ih =>
    obtain ⟨n, hb, hn⟩ := hx
    exact ⟨n, hb, ih hn⟩

/-- The bytes are read quietly up to their last one, which gives `out`. -/
def ReadsUpTo (p : Params) (bs : List Byte) (r : Receiver) (out : Receiver × RxVerdict) : Prop :=
  ∃ pre b m, bs = pre ++ [b] ∧ ReadsQuietly p pre r m ∧ receiveByte p b m = out

theorem ReadsQuietly.upTo {p : Params} {xs ys : List Byte} {r m : Receiver} {out : Receiver × RxVerdict}
    (hx : ReadsQuietly p xs r m) (hy : ReadsUpTo p ys m out) : ReadsUpTo p (xs ++ ys) r out := by
  obtain ⟨pre, b, n, rfl, hpre, hb⟩ := hy
  exact ⟨xs ++ pre, b, n, (List.append_assoc _ _ _).symm, hx.append hpre, hb⟩

theorem ReadsUpTo.quiet {p : Params} {bs : List Byte} {r r' : Receiver} (h : ReadsUpTo p bs r (r', .quiet)) :
    ReadsQuietly p bs r r' := by
  obtain ⟨pre, b, m, rfl, hpre, hb⟩ := h
  exact hpre.append ⟨r', hb, rfl⟩

/-- Inside a frame the last byte that `stuff` gives for `v` delivers `v`, and a byte before it is quiet (R142, R145). -/
theorem stuff_delivers {p : Params} {r : Receiver} (hp : p.wellFormed = true) (hs : r.rstate ≠ .synchronizing)
    (he : r.escPending = false) (v : Byte) : ReadsUpTo p (stuff p v) r (deliverByte p v r) := by
  have hne := Params.esc_ne_marker_of_wellFormed hp
  have hr : { r with escPending := false } = r := by rw [← he]
  have delivers {m : Receiver} {b : Byte} (hm : { m with escPending := false } = r) (hms : m.rstate ≠ .synchronizing)
      (hb : completesByte p m b v) : receiveByte p b m = deliverByte p v r :=
    (receiveByte_of_completesByte hp hms hb).trans (congrArg (deliverByte p v) hm)
  have hesc : ReadsQuietly p [p.esc] r { r with escPending := true } :=
    ⟨_, by simp [receiveByte, hne, hs, he], rfl⟩
  rcases stuff_cases hp v with ⟨hm, hv, hst⟩ | ⟨hv, hst⟩ | ⟨hv, hst⟩
  · exact ⟨[], v, r, hst, rfl, delivers hr hs (.inl ⟨he, hm, hv, rfl⟩)⟩
  · exact ⟨[p.esc], _, _, hst, hesc, delivers hr hs (.inr (.inl ⟨rfl, rfl, hv⟩))⟩
  · exact ⟨[p.esc], _, _, hst, hesc, delivers hr hs (.inr (.inr ⟨rfl, rfl, hv⟩))⟩

theorem readsQuietly_stuff {p : Params} {r m : Receiver} {v : Byte} (hp : p.wellFormed = true)
    (hs : r.rstate ≠ .synchronizing) (he : r.escPending = false) (hv : deliverByte p v r = (m, .quiet)) :
    ReadsQuietly p (stuff p v) r m :=
  (hv ▸ stuff_delivers hp hs he v).quiet

/-! ## Where a layout ends (R84 to R86, R146, R147) -/

/-- The bytes after the marker of a whole layout: two with the type bit clear, or three and the payload that the third
announces. -/
inductive CompleteBody : List Byte → Prop
  | headerOnly {b1 b2 : Byte} (ht : typeOf b1 = false) : CompleteBody [b1, b2]
  | command {b1 b2 b3 : Byte} {payload : List Byte} (ht : typeOf b1 = true)
      (hl : payload.length = (lenOf b3).toNat) : CompleteBody (b1 :: b2 :: b3 :: payload)

/-- No layout begins another one, so that a receiver knows the end of each. -/
theorem CompleteBody.append_eq_nil {xs ys : List Byte} (hx : CompleteBody xs) (h : CompleteBody (xs ++ ys)) :
    ys = [] := by
  cases hx with
  | headerOnly ht =>
    cases h with
    | headerOnly => rfl
    | command ht' => cases ht.symm.trans ht'
  | command ht hl =>
    cases h with
    | command _ hl' =>
      have hlen := hl.trans hl'.symm
      rw [List.append_eq, List.length_append] at hlen
      exact List.eq_nil_of_length_eq_zero (by omega)

theorem frameLayout_completeBody (p : Params) {f : Frame} (h : f.wellFormed = true) :
    ∃ body, frameLayout p f = p.marker :: body ∧ CompleteBody body := by
  cases f with
  | headerOnly hdr => exact ⟨_, rfl, .headerOnly (typeOf_headerByte1 _ _ _)⟩
  | command c =>
    exact ⟨_, rfl, .command (typeOf_headerByte1 _ _ _) (by rw [lenOf_commandByte, payloadOk_nibble h])⟩

/-! ## The receiver within a frame (R146, R147) -/

/-- In ReadingChecksum the stored bytes are the layout of the receiver's frame (R120, R150). -/
theorem ReceiverInv.decodeFrameBytes_stored {p : Params} {r : Receiver} (h : ReceiverInv p r)
    (hs : r.rstate = .readingChecksum) :
    decodeFrameBytes p (p.marker :: r.rbuf.toList.take r.rcount.toNat) = .ok r.frame := by
  obtain ⟨-, ⟨ht, hc⟩ | ⟨ht, hl, hc⟩⟩ := h.checksum hs
  · exact decodeFrameBytes_rbuf_headerOnly p r ht hc
  · exact decodeFrameBytes_rbuf_command p r ht hl hc

/-- The receiver stands within a frame that began at `r₀`, has stored `body`, and has received no checksum byte. -/
structure HasStored (p : Params) (r₀ : Receiver) (body : List Byte) (r : Receiver) : Prop where
  inv : ReceiverInv p r
  in_frame : r.rstate ≠ .synchronizing
  no_escape : r.escPending = false
  no_checksum : r.rchk = []
  stored : r.rbuf.toList.take r.rcount.toNat = body
  crc : r.rcrc = (covered p (p.marker :: body)).foldl (chkStep p) p.chkInit
  framesOk : r.framesOk = r₀.framesOk
  framesIncomplete : r.framesIncomplete = r₀.framesIncomplete
  chkFails : r.chkFails = r₀.chkFails

/-- A marker starts a frame in every receiver state (R141). -/
theorem hasStored_startFrame (p : Params) (r : Receiver) : HasStored p (startFrame p r) [] (startFrame p r) where
  inv := .startFrame p r
  in_frame := nofun
  no_escape := rfl
  no_checksum := rfl
  stored := rfl
  crc := by cases hm : p.chkCoversMarker <;> simp [covered, hm]
  framesOk := rfl
  framesIncomplete := rfl
  chkFails := rfl

theorem covered_marker_concat (p : Params) (body : List Byte) (v : Byte) :
    covered p (p.marker :: (body ++ [v])) = covered p (p.marker :: body) ++ [v] := by
  cases hm : p.chkCoversMarker <;> simp [covered, hm]

theorem storeByte_stored (p : Params) (v : Byte) {r : Receiver} (h : r.rcount.toNat < 18) :
    (storeByte p v r).rbuf.toList.take (storeByte p v r).rcount.toNat = r.rbuf.toList.take r.rcount.toNat ++ [v] := by
  rw [storeByte_rcount_toNat p v h.le, storeByte_rbuf, Vector.toList_setIfInBounds,
    List.take_succ_eq_append_getElem (by simpa using h), List.take_set_of_le (le_refl _)]
  simp

/-- A delivery before the checksum stores the byte, and stays within the frame. -/
theorem deliverByte_stores (p : Params) (v : Byte) {r : Receiver} (hs : r.rstate ≠ .synchronizing)
    (hc : r.rstate ≠ .readingChecksum) :
    ∃ (state : RState) (len : BitVec 4), state ≠ .synchronizing ∧
      deliverByte p v r = ({ storeByte p v r with rstate := state, rlen := len }, .quiet) := by
  rcases deliverByte_cases p v r with ⟨h, -⟩ | ⟨-, h⟩ | ⟨-, h⟩ | ⟨h, -⟩
  · exact absurd h hs
  · rcases headerByte_cases p v r with ⟨-, -, hb⟩ | ⟨-, hb⟩ | ⟨-, -, hb⟩ <;> rw [hb] at h
    · exact ⟨.readingChecksum, _, nofun, h⟩
    · exact ⟨_, _, by split <;> nofun, h⟩
    · exact ⟨_, _, hs, h⟩
  · rcases packetByte_cases p v r with ⟨-, hb⟩ | ⟨-, hb⟩ <;> rw [hb] at h
    · exact ⟨.readingChecksum, _, nofun, h⟩
    · exact ⟨_, _, hs, h⟩
  · exact absurd h hc

namespace HasStored

section
variable {p : Params} {r₀ r : Receiver} {body : List Byte}

theorem length (h : HasStored p r₀ body r) : body.length = r.rcount.toNat := by
  have := h.inv.count_le
  rw [← h.stored, List.length_take, Vector.length_toList]
  omega

/-- Before the checksum there is room in the buffer (R22). -/
theorem room (h : HasStored p r₀ body r) (hc : r.rstate ≠ .readingChecksum) : r.rcount.toNat < 18 := by
  have hlen := r.rlen.isLt
  cases hs : r.rstate with
  | synchronizing => exact absurd hs h.in_frame
  | readingHeader =>
    obtain ⟨hcount, -⟩ := h.inv.header hs
    omega
  | readingPacket =>
    obtain ⟨-, -, -, hcount, -⟩ := h.inv.packet hs
    omega
  | readingChecksum => exact absurd hs hc

theorem deliver (h : HasStored p r₀ body r) (hc : r.rstate ≠ .readingChecksum) (v : Byte) :
    ∃ m, deliverByte p v r = (m, .quiet) ∧ HasStored p r₀ (body ++ [v]) m := by
  obtain ⟨state, len, hstate, hd⟩ := deliverByte_stores p v h.in_frame hc
  have hinv := h.inv.deliverByte h.no_escape v
  rw [hd] at hinv
  exact ⟨_, hd,
    { inv := hinv
      in_frame := hstate
      no_escape := h.no_escape
      no_checksum := h.no_checksum
      stored := (storeByte_stored p v (h.room hc)).trans (congrArg (· ++ [v]) h.stored)
      crc := by rw [covered_marker_concat, List.foldl_append, ← h.crc]; rfl
      framesOk := h.framesOk
      framesIncomplete := h.framesIncomplete
      chkFails := h.chkFails }⟩

theorem rbuf_eq (h : HasStored p r₀ body r) {i : Nat} (hi : i < body.length) (h18 : i < 18) :
    r.rbuf[i] = body[i] := by
  simp [← h.stored]

/-- The receiver waits for the checksum exactly when it has stored a whole layout (R146, R147). -/
theorem readingChecksum_iff (h : HasStored p r₀ body r) : r.rstate = .readingChecksum ↔ CompleteBody body := by
  have hlen := h.length
  constructor
  · intro hs
    rw [← h.stored, r.rbuf_toList]
    obtain ⟨-, ⟨ht, hc⟩ | ⟨ht, hl, hc⟩⟩ := h.inv.checksum hs
    · rw [hc]
      exact .headerOnly ht
    · rw [hc, Nat.add_comm]
      exact .command ht (by rw [← hl]; exact r.payload_length)
  · intro hbody
    cases hs : r.rstate with
    | synchronizing => exact absurd hs h.in_frame
    | readingHeader =>
      obtain ⟨hcount, htype, -⟩ := h.inv.header hs
      cases hbody with
      | headerOnly ht =>
        rw [h.rbuf_eq (by simp)] at htype
        cases ht.symm.trans (htype hlen.symm)
      | command => simp only [List.length_cons] at hlen; omega
    | readingPacket =>
      obtain ⟨-, hrlen, hge, hlt, -⟩ := h.inv.packet hs
      cases hbody with
      | headerOnly => simp only [List.length_cons, List.length_nil] at hlen; omega
      | command _ hl =>
        rw [h.rbuf_eq (by simp)] at hrlen
        simp only [List.length_cons, hl] at hlen
        simp only [hrlen, List.getElem_cons_succ, List.getElem_cons_zero] at hlt
        omega
    | readingChecksum => rfl

/-- The rest of a layout is read quietly, and then the receiver has stored the whole of it. -/
theorem reads (hp : p.wellFormed = true) {more : List Byte} (h : HasStored p r₀ body r)
    (hbody : CompleteBody (body ++ more)) :
    ∃ m, ReadsQuietly p (more.flatMap (stuff p)) r m ∧ HasStored p r₀ (body ++ more) m := by
  induction more generalizing body r with
  | nil => exact ⟨r, rfl, by rwa [List.append_nil]⟩
  | cons v more ih =>
    have hc : r.rstate ≠ .readingChecksum := fun hs =>
      List.cons_ne_nil v more ((h.readingChecksum_iff.1 hs).append_eq_nil hbody)
    obtain ⟨n, hd, hn⟩ := h.deliver hc v
    rw [List.append_cons] at hbody ⊢
    obtain ⟨m, hquiet, hm⟩ := ih hn hbody
    rw [List.flatMap_cons]
    exact ⟨m, (readsQuietly_stuff hp h.in_frame h.no_escape hd).append hquiet, hm⟩

/-- A receiver that has stored a frame's layout hands on that frame (R150). -/
theorem frame_eq (h : HasStored p r₀ body r) (hs : r.rstate = .readingChecksum) {f : Frame} (hf : f.wellFormed = true)
    (hbody : frameLayout p f = p.marker :: body) : r.frame = f := by
  have hframe := h.inv.decodeFrameBytes_stored hs
  rw [h.stored, ← hbody, decodeFrameBytes_frameLayout p hf] at hframe
  exact (Except.ok.inj hframe).symm

end

end HasStored

/-! ## The checksum bytes of a frame (R148, R150) -/

theorem readsQuietly_checksum {p : Params} (hp : p.wellFormed = true) {vs : List Byte} {r : Receiver}
    (hs : r.rstate = .readingChecksum) (he : r.escPending = false)
    (hl : (r.rchk ++ vs).length < p.chkWidth.bytes) :
    ReadsQuietly p (vs.flatMap (stuff p)) r { r with rchk := r.rchk ++ vs } := by
  induction vs generalizing r with
  | nil => simp [ReadsQuietly]
  | cons v vs ih =>
    rw [List.append_cons] at hl ⊢
    have hmore : (r.rchk ++ [v]).length ≠ p.chkWidth.bytes := by
      rw [List.length_append] at hl
      omega
    have hd : deliverByte p v r = ({ r with rchk := r.rchk ++ [v] }, .quiet) := by
      simp only [deliverByte, hs, checksumByte, if_neg hmore]
    rw [List.flatMap_cons]
    exact (readsQuietly_stuff hp (by simp [hs]) he hd).append (ih hs he hl)

theorem deliverByte_of_match {p : Params} {v : Byte} {r : Receiver} (hs : r.rstate = .readingChecksum)
    (hl : (r.rchk ++ [v]).length = p.chkWidth.bytes) (hc : assemble p (r.rchk ++ [v]) = chkFinal p r.rcrc) :
    deliverByte p v r =
      ({ r with rchk := r.rchk ++ [v], framesOk := r.framesOk + 1#32, rstate := .synchronizing }, .frame r.frame) := by
  rw [← checksumByte_of_match hl hc]
  simp only [deliverByte, hs]

/-- The receiver after the last byte of the frame `f` that began at `r₀` (R150). -/
structure HandsOn (r₀ : Receiver) (f : Frame) (r : Receiver) : Prop where
  frame : r.frame = f
  rstate : r.rstate = .synchronizing
  escPending : r.escPending = false
  framesOk : r.framesOk = r₀.framesOk + 1#32
  chkFails : r.chkFails = r₀.chkFails
  framesIncomplete : r.framesIncomplete = r₀.framesIncomplete

theorem chkBytes_eq_concat (p : Params) (c : ChkReg) : ∃ vs v, chkBytes p c = vs ++ [v] := by
  refine (List.eq_nil_or_concat' _).resolve_left fun hnil => ?_
  exact (ChkWidth.bytes_pos p.chkWidth).ne' ((chkBytes_length p c).symm.trans (congrArg List.length hnil))

/-- The checksum bytes of a stored layout end its frame: the last one hands it on. -/
theorem HasStored.reads_checksum {p : Params} (hp : p.wellFormed = true) {r₀ r : Receiver} {body : List Byte}
    (h : HasStored p r₀ body r) {f : Frame} (hf : f.wellFormed = true) (hlayout : frameLayout p f = p.marker :: body)
    (hs : r.rstate = .readingChecksum) :
    ∃ r', ReadsUpTo p ((chkBytes p (checksum p (p.marker :: body))).flatMap (stuff p)) r (r', .frame f) ∧
      HandsOn r₀ f r' := by
  have hsum : assemble p (chkBytes p (checksum p (p.marker :: body))) = chkFinal p r.rcrc := by
    rw [h.crc]
    exact assemble_chkBytes (chkTrunc_chkFinal p _)
  have hlen := chkBytes_length p (checksum p (p.marker :: body))
  obtain ⟨vs, v, hvs⟩ := chkBytes_eq_concat p (checksum p (p.marker :: body))
  rw [hvs] at hsum hlen ⊢
  have hquiet : ReadsQuietly p (vs.flatMap (stuff p)) r { r with rchk := vs } := by
    have hmore : (r.rchk ++ vs).length < p.chkWidth.bytes := by simp [h.no_checksum, ← hlen]
    simpa only [h.no_checksum, List.nil_append] using readsQuietly_checksum hp hs h.no_escape hmore
  have hlast := deliverByte_of_match (r := { r with rchk := vs }) hs hlen hsum
  have hframe : ({ r with rchk := vs } : Receiver).frame = f := h.frame_eq hs hf hlayout
  have hdelivers := stuff_delivers (r := { r with rchk := vs }) hp h.in_frame h.no_escape v
  rw [hlast, hframe] at hdelivers
  rw [List.flatMap_append, List.flatMap_singleton]
  exact ⟨_, hquiet.upTo hdelivers,
    ⟨hframe, rfl, h.no_escape, congrArg (· + 1#32) h.framesOk, h.chkFails, h.framesIncomplete⟩⟩

/-! ## The wire image of a frame (R116) -/

/-- From every receiver state the last byte of a frame's wire image, and no byte before it, hands on that frame. -/
theorem readsUpTo_wireImage {p : Params} (hp : p.wellFormed = true) {f : Frame} (hf : f.wellFormed = true)
    (r : Receiver) :
    ∃ r', ReadsUpTo p (wireImage p (frameLayout p f)) r (r', .frame f) ∧ HandsOn (startFrame p r) f r' := by
  obtain ⟨body, hlayout, hbody⟩ := frameLayout_completeBody p hf
  obtain ⟨n, hquiet, hn⟩ := (hasStored_startFrame p r).reads hp hbody
  obtain ⟨r', hchk, hr'⟩ := hn.reads_checksum hp hf hlayout (hn.readingChecksum_iff.2 hbody)
  have hstart : ReadsQuietly p [p.marker] r (startFrame p r) := ⟨_, if_pos rfl, rfl⟩
  rw [hlayout, wireImage_marker_cons, List.flatMap_append]
  exact ⟨r', hstart.upTo (hquiet.upTo hchk), hr'⟩

/-! ## The steps of a running block (R15, R140) -/

theorem core_run_succ {M : Host.Core} {s t : M.State} (h : M.step s = .next t) (n : Nat) :
    M.run (n + 1) s = M.run n t := by
  simp only [Host.Core.run, h]

theorem runSteps_succ {s t : State} (h : step s = .next t) (n : Nat) : runSteps (n + 1) s = runSteps n t :=
  core_run_succ (M := core) h n

section
variable {s : State} {rest : List Event}

theorem step_of_quiet {b : Byte} {r : Receiver} (hs : s.env.schedule = .rxByte b :: rest) (hrun : s.running)
    (hi : s.ctl.cstate ≠ .initial) (hb : s.ctl.cstate ≠ .broadcastingStationId)
    (hr : receiveByte s.params b s.rx = (r, .quiet)) : step s = .next { s.withSchedule rest with rx := r } := by
  rw [step_rxByte hs hrun hi hb]
  simp only [rxByteEvent, hr, State.withSchedule]

theorem step_of_frame {b : Byte} {r : Receiver} {f : Frame} (hs : s.env.schedule = .rxByte b :: rest)
    (hrun : s.running) (hi : s.ctl.cstate ≠ .initial) (hb : s.ctl.cstate ≠ .broadcastingStationId)
    (hr : receiveByte s.params b s.rx = (r, .frame f)) :
    step s = exec (Instr.ofFrame f) { s.withSchedule rest with rx := r } :=
  (step_rxByte hs hrun hi hb).trans (rxByteEvent_of_frame hr)

/-- Bytes that the receiver reads quietly change the receiver and nothing else. -/
theorem runSteps_readsQuietly {bs : List Byte} {r : Receiver} (h : ReadsQuietly s.params bs s.rx r)
    (hrun : s.running) (hi : s.ctl.cstate ≠ .initial) (hb : s.ctl.cstate ≠ .broadcastingStationId)
    (hs : s.env.schedule = bs.map Event.rxByte ++ rest) :
    runSteps bs.length s = .next { s.withSchedule rest with rx := r } := by
  induction bs generalizing s with
  | nil =>
    cases h
    have hrest : rest = s.env.schedule := hs.symm
    rw [hrest]
    rfl
  | cons b bs ih =>
    obtain ⟨m, hm, hquiet⟩ := h
    rw [List.length_cons, runSteps_succ (step_of_quiet hs hrun hi hb hm)]
    exact ih hquiet hrun hi hb rfl

end

/-- Settles O10: all bytes of the wire image but the last are read quietly, and the last one hands the frame on. -/
theorem receiverRunsEveryTransmittedFrame : Obligations.ReceiverRunsEveryTransmittedFrame := by
  intro s f rest hp hf hrun hi hb hs
  obtain ⟨r, ⟨pre, b, m, himage, hquiet, hlast⟩, hr⟩ := readsUpTo_wireImage hp hf s.rx
  have hsched : s.env.schedule = pre.map Event.rxByte ++ .rxByte b :: rest := by simpa [himage] using hs
  have hlen : (wireImage s.params (frameLayout s.params f)).length - 1 = pre.length := by simp [himage]
  rw [hlen]
  exact ⟨_, r, runSteps_readsQuietly hquiet hrun hi hb hsched, step_of_frame rfl hrun hi hb hlast, hr.frame,
    hr.rstate, hr.escPending, hr.framesOk.trans (congrArg (· + 1#32) (startFrame_framesOk _ _)),
    hr.chkFails.trans (startFrame_chkFails _ _), hr.framesIncomplete.trans (startFrame_framesIncomplete _ _)⟩

end Sys2Proof.Machine
end

section
/-! What each byte and an idle line do to the receiver (spec/41_frame_reader.md R141 to R151) and to its three counters
(R154, R156). -/

namespace Sys2Proof.Machine

open Sys2Proof

/-! ## A byte that delivers nothing, and an idle line (R141 to R144, R149) -/

theorem isEscLiteral_eq_false_iff (p : Params) (b : Byte) :
    isEscLiteral p b = false ↔ b ≠ p.markerLit ∧ b ≠ p.escLit := by
  simp [isEscLiteral]

theorem startFrame_eq (p : Params) (r : Receiver) :
    startFrame p r = { r with
      rstate := .readingHeader, escPending := false, rcount := 0#5, rlen := 0#4, rchk := []
      rcrc := if p.chkCoversMarker then chkStep p p.chkInit p.marker else p.chkInit
      framesIncomplete := if r.rstate = .synchronizing then r.framesIncomplete else r.framesIncomplete + 1#32 } := by
  by_cases hs : r.rstate = .synchronizing <;> simp [startFrame, hs, countIncomplete]

section
variable {p : Params} {b : Byte} {r : Receiver}

theorem receiveByte_marker : receiveByte p p.marker r = (startFrame p r, .quiet) := if_pos rfl

theorem receiveByte_synchronizing (hb : b ≠ p.marker) (hs : r.rstate = .synchronizing) :
    receiveByte p b r = (r, .quiet) := by
  simp [receiveByte, hb, hs]

theorem receiveByte_esc (hp : p.wellFormed = true) (hs : r.rstate ≠ .synchronizing) (he : r.escPending = false) :
    receiveByte p p.esc r = ({ r with escPending := true }, .quiet) := by
  simp [receiveByte, Params.esc_ne_marker_of_wellFormed hp, hs, he]

theorem receiveByte_violation (hb : b ≠ p.marker) (hs : r.rstate ≠ .synchronizing) (he : r.escPending = true)
    (hl : isEscLiteral p b = false) : receiveByte p b r = (resynchronize r, .quiet) := by
  simp [receiveByte, hb, hs, he, hl]

theorem receiveIdle_of_synchronizing (hs : r.rstate = .synchronizing) : receiveIdle r = r := if_pos hs

theorem receiveIdle_of_ne_synchronizing (hs : r.rstate ≠ .synchronizing) : receiveIdle r = resynchronize r := if_neg hs

end

theorem step_rxIdle {s : State} {rest : List Event} (h : s.env.schedule = .rxIdle :: rest) (hrun : s.running)
    (hi : s.ctl.cstate ≠ .initial) (hb : s.ctl.cstate ≠ .broadcastingStationId) :
    step s = .next { s.withSchedule rest with rx := receiveIdle s.rx } := by
  have hact : ({ s with env := { s.env with schedule := rest } } : State).activity = .active :=
    activity_of_running _ hrun hi hb
  rw [step_event s _ rest h]
  simp only [handle, whileActive, hact, State.withSchedule]

/-- Settles O12: each of the six events is quiet for the controller, so that the receiver's own transition is the step. -/
theorem markersEscapesAndIdleInTheReceiver : Obligations.MarkersEscapesAndIdleInTheReceiver := by
  intro s rest hrun hi hbid
  refine ⟨fun hs => ?marker, fun b hs hb hsync => ?synchronizing, fun hs hp hframe he => ?escape,
    fun b hs hb hmarker hesc hframe he => ?violation, fun hs hframe => ?idle, fun hs hsync => ?idleSynchronizing⟩
  case marker =>
    rw [step_of_quiet hs hrun hi hbid receiveByte_marker, startFrame_eq]
    rfl
  case synchronizing => exact step_of_quiet hs hrun hi hbid (receiveByte_synchronizing hb hsync)
  case escape => exact step_of_quiet hs hrun hi hbid (receiveByte_esc hp hframe he)
  case violation =>
    have hl : isEscLiteral s.params b = false := (isEscLiteral_eq_false_iff _ b).2 ⟨hmarker, hesc⟩
    exact step_of_quiet hs hrun hi hbid (receiveByte_violation hb hframe he hl)
  case idle =>
    rw [step_rxIdle hs hrun hi hbid, receiveIdle_of_ne_synchronizing hframe]
    rfl
  case idleSynchronizing =>
    rw [step_rxIdle hs hrun hi hbid, receiveIdle_of_synchronizing hsync]
    rfl

/-! ## The three counters (R154, R156) -/

/-- None of the three counters has moved. -/
structure SameCounts (r r' : Receiver) : Prop where
  framesOk : r'.framesOk = r.framesOk
  framesIncomplete : r'.framesIncomplete = r.framesIncomplete
  chkFails : r'.chkFails = r.chkFails

/-- What a byte does to the counters: it restarts the receiver, leaves the counts alone, breaks an escape, or is the last
byte `v` of a checksum, which may have ended an escape and so set `ESC_PENDING` to `e`. -/
inductive Counted (p : Params) (b : Byte) (r : Receiver) : Receiver × RxVerdict → Prop
  | restarted (hb : b = p.marker) : Counted p b r (startFrame p r, .quiet)
  | kept {m : Receiver} (hb : b ≠ p.marker) (hm : SameCounts r m) : Counted p b r (m, .quiet)
  | violated (hs : r.rstate ≠ .synchronizing) (he : r.escPending = true) (hl : isEscLiteral p b = false) :
    Counted p b r (resynchronize r, .quiet)
  | handedOn {e : Bool} {v : Byte} (hs : r.rstate = .readingChecksum)
    (hc : assemble p (r.rchk ++ [v]) = chkFinal p r.rcrc) :
    Counted p b r
      ({ r with
          escPending := e, rchk := r.rchk ++ [v], framesOk := r.framesOk + 1#32, rstate := .synchronizing },
        .frame r.frame)
  | spoilt {e : Bool} {v : Byte} (hs : r.rstate = .readingChecksum)
    (hc : assemble p (r.rchk ++ [v]) ≠ chkFinal p r.rcrc) :
    Counted p b r
      ({ r with
          escPending := e, rchk := r.rchk ++ [v], chkFails := r.chkFails + 1#32, rstate := .synchronizing },
        .checksumFail)

namespace Counted

variable {p : Params} {b : Byte} {r : Receiver}

/-- An un-stuffed byte inside a frame is counted only if it is the last one of the checksum (R148, R150, R151). -/
theorem deliverByte (hb : b ≠ p.marker) (hs : r.rstate ≠ .synchronizing) (e : Bool) (v : Byte) :
    Counted p b r (deliverByte p v { r with escPending := e }) := by
  by_cases hchk : r.rstate = .readingChecksum
  · have hd : Machine.deliverByte p v { r with escPending := e } = checksumByte p v { r with escPending := e } := by
      simp only [Machine.deliverByte, hchk]
    rw [hd]
    rcases checksumByte_cases p v { r with escPending := e } with ⟨-, h⟩ | ⟨-, hc, h⟩ | ⟨-, hc, h⟩ <;> rw [h]
    · exact kept hb ⟨rfl, rfl, rfl⟩
    · exact handedOn hchk hc
    · exact spoilt hchk hc
  · obtain ⟨state, len, -, hd⟩ := deliverByte_stores p v (r := { r with escPending := e }) hs hchk
    rw [hd]
    exact kept hb ⟨rfl, rfl, rfl⟩

theorem receiveByte (p : Params) (b : Byte) (r : Receiver) : Counted p b r (receiveByte p b r) := by
  rcases receiveByte_cases p b r with
    ⟨hb, h⟩ | ⟨hb, -, h⟩ | ⟨hb, hs, -, -, h⟩ | ⟨-, hs, he, hl, h⟩ | ⟨hb, -, -, -, h⟩ | ⟨hb, hs, -, -, h⟩ <;> rw [h]
  · exact restarted hb
  · exact kept hb ⟨rfl, rfl, rfl⟩
  · exact deliverByte hb hs false _
  · exact violated hs he hl
  · exact kept hb ⟨rfl, rfl, rfl⟩
  · exact deliverByte hb hs r.escPending b

end Counted

/-- Settles O11: one case for each way in which a byte is counted. -/
theorem receiverCountersAccountForEveryByte : Obligations.ReceiverCountersAccountForEveryByte := by
  intro p b r r' v hr
  have hcounted := Counted.receiveByte p b r
  rw [hr] at hcounted
  cases hcounted with
  | restarted hb =>
    refine ⟨startFrame_framesOk p r, startFrame_chkFails p r, ?_⟩
    by_cases hs : r.rstate = .synchronizing
    · exact .inl ⟨by simp [hs], fun _ => hs⟩
    · exact .inr ⟨by simp [hs], hs, .inl hb⟩
  | kept hb hm => exact ⟨hm.framesOk, hm.chkFails, .inl ⟨hm.framesIncomplete, fun h => absurd h hb⟩⟩
  | violated hs he hl =>
    obtain ⟨hmarker, hesc⟩ := (isEscLiteral_eq_false_iff p b).1 hl
    exact ⟨rfl, rfl, .inr ⟨rfl, hs, .inr ⟨he, hmarker, hesc, rfl⟩⟩⟩
  | handedOn hs hc => exact ⟨rfl, rfl, rfl, hs, rfl, rfl, hc, rfl⟩
  | spoilt hs hc => exact ⟨rfl, rfl, rfl, hs, rfl, rfl, hc⟩

end Sys2Proof.Machine
end

section
/-! The ring of station ids (spec/42_arbitration.md R197, R198). -/

namespace Sys2Proof.Machine

open Sys2Proof

/-! ## Searching in order -/

section
variable {α : Type} {r : α → α → Prop} {l : List α} {q : α → Bool}

/-- A search through an ordered list finds the first element of all that pass the test. -/
theorem find?_first (hl : l.Pairwise r) (hr : ∀ z, r z z) {y : α} (h : l.find? q = some y) :
    q y = true ∧ ∀ z ∈ l, q z = true → r y z := by
  obtain ⟨hy, before, after, rfl, hbefore⟩ := List.find?_eq_some_iff_append.1 h
  refine ⟨hy, fun z hz hqz => ?_⟩
  rcases List.mem_append.1 hz with hz | hz
  · exact absurd hqz (by simpa using hbefore z hz)
  · rcases List.mem_cons.1 hz with rfl | hz
    · exact hr z
    · exact List.rel_of_pairwise_cons (List.pairwise_append.1 hl).2.1 hz

/-- A search on one side first and then on both, where something is found: the first on that side, or, with nothing
there, the first of all. -/
theorem find?_or_find?_first (hl : l.Pairwise r) (hr : ∀ z, r z z) (side : α → Bool) (hq : ∃ z ∈ l, q z = true) :
    ∃ y, (l.find? fun z => q z && side z).or (l.find? q) = some y ∧ q y = true ∧
      ((side y = true ∧ ∀ z ∈ l, q z = true → side z = true → r y z) ∨
        ((∀ z ∈ l, q z = true → side z = false) ∧ ∀ z ∈ l, q z = true → r y z)) := by
  cases hside : l.find? fun z => q z && side z with
  | some y =>
    obtain ⟨hy, hfirst⟩ := find?_first hl hr hside
    simp only [Bool.and_eq_true, and_imp] at hy hfirst
    exact ⟨y, rfl, hy.1, .inl ⟨hy.2, hfirst⟩⟩
  | none =>
    have hnone (z) (hz : z ∈ l) (hqz : q z = true) : side z = false := by
      simpa [hqz] using List.find?_eq_none.1 hside z hz
    obtain ⟨y, hy⟩ := Option.isSome_iff_exists.1 (List.find?_isSome.2 hq)
    obtain ⟨hqy, hfirst⟩ := find?_first hl hr hy
    exact ⟨y, hy, hqy, .inr ⟨hnone, hfirst⟩⟩

end

/-! ## The station ids (R61) -/

theorem mem_stationIds (i : StationId) : i ∈ stationIds :=
  List.mem_map.2 ⟨i.toNat, List.mem_range.2 i.isLt, by simp⟩

theorem mem_stationIds_reverse (i : StationId) : i ∈ stationIds.reverse := List.mem_reverse.2 (mem_stationIds i)

theorem stationIds_ascending : stationIds.Pairwise fun i j => i.toNat ≤ j.toNat := by
  refine List.pairwise_map.2 (List.pairwise_lt_range.imp_of_mem fun hi hj hlt => ?_)
  rw [List.mem_range] at hi hj
  simp only [BitVec.toNat_ofNat]
  omega

theorem exists_member {set : BitVec 64} (h : set ≠ 0#64) : ∃ i, member set i = true := by
  by_contra hnone
  refine h (BitVec.eq_of_getLsbD_eq fun i hi => ?_)
  have hi' : member set (BitVec.ofNat 6 i) = false := by simpa using fun hm => hnone ⟨_, hm⟩
  simpa [member, Nat.mod_eq_of_lt hi] using hi'

/-! ## The ring functions (R197) -/

theorem ringSucc_eq (x : StationId) (set : BitVec 64) : ringSucc x set =
    (stationIds.find? fun y => member set y && decide (x.toNat < y.toNat)).or (stationIds.find? (member set)) := by
  unfold ringSucc
  split <;> next h => rw [h]; rfl

theorem ringPred_eq (x : StationId) (set : BitVec 64) : ringPred x set =
    (stationIds.reverse.find? fun y => member set y && decide (y.toNat < x.toNat)).or
      (stationIds.reverse.find? (member set)) := by
  unfold ringPred
  split <;> next h => rw [h]; rfl

theorem ringSucc_nearest (x : StationId) {set : BitVec 64} (h : set ≠ 0#64) :
    ∃ y, ringSucc x set = some y ∧ member set y = true ∧
      ((x.toNat < y.toNat ∧ ∀ z, member set z = true → x.toNat < z.toNat → y.toNat ≤ z.toNat) ∨
        ((∀ z, member set z = true → z.toNat ≤ x.toNat) ∧ ∀ z, member set z = true → y.toNat ≤ z.toNat)) := by
  obtain ⟨i, hi⟩ := exists_member h
  have hfirst := find?_or_find?_first stationIds_ascending (fun _ => Nat.le_refl _)
    (fun y => decide (x.toNat < y.toNat))
    ⟨i, mem_stationIds i, hi⟩
  simpa [ringSucc_eq, mem_stationIds] using hfirst

theorem ringPred_nearest (x : StationId) {set : BitVec 64} (h : set ≠ 0#64) :
    ∃ y, ringPred x set = some y ∧ member set y = true ∧
      ((y.toNat < x.toNat ∧ ∀ z, member set z = true → z.toNat < x.toNat → z.toNat ≤ y.toNat) ∨
        ((∀ z, member set z = true → x.toNat ≤ z.toNat) ∧ ∀ z, member set z = true → z.toNat ≤ y.toNat)) := by
  obtain ⟨i, hi⟩ := exists_member h
  have hfirst := find?_or_find?_first (List.pairwise_reverse.2 stationIds_ascending) (fun _ => Nat.le_refl _)
    (fun y => decide (y.toNat < x.toNat)) ⟨i, mem_stationIds_reverse i, hi⟩
  simpa [ringPred_eq, mem_stationIds] using hfirst

/-- Settles O30: in each function the first search finds the nearest member on its side, the second wraps around. -/
theorem ringNeighboursAreNearest : Obligations.RingNeighboursAreNearest :=
  fun x _ h => ⟨ringSucc_nearest x h, ringPred_nearest x h⟩

/-! ## The assigned id (R198) -/

/-- `ASSIGN_ID` passes over an id. -/
def State.passesOver (s : State) (m : StationId) : Prop :=
  s.ctl.ownId = some m ∨ member s.ctl.known m = true ∨ m = s.params.unassignedWireId

theorem State.not_passesOver_iff (s : State) (m : StationId) : ¬ s.passesOver m ↔
    (decide (s.ctl.ownId ≠ some m) && !member s.ctl.known m && decide (m ≠ s.params.unassignedWireId)) = true := by
  simp [State.passesOver, and_assoc]

/-- Settles O31: the search goes through all ids in ascending order and tests each for being free. -/
theorem assignedIdIsTheLowestFree : Obligations.AssignedIdIsTheLowestFree := by
  intro s
  refine ⟨fun n hn => ?_, fun hnone m => ?_⟩
  · obtain ⟨hown, hwire, hknown⟩ := assignId_free hn
    refine ⟨⟨hown, hknown, hwire⟩, fun m hlt => by_contra fun hfree => ?_⟩
    obtain ⟨-, hlowest⟩ := find?_first stationIds_ascending (fun _ => Nat.le_refl _) hn
    exact Nat.not_le_of_lt hlt (hlowest m (mem_stationIds m) ((s.not_passesOver_iff m).1 hfree))
  · exact by_contra fun hfree =>
      List.find?_eq_none.1 hnone m (mem_stationIds m) ((s.not_passesOver_iff m).1 hfree)

end Sys2Proof.Machine
end

section
/-! Under the invariant no step faults (spec/42_arbitration.md R171, R188, R197): CSTATE is never BroadcastingStationId,
and where a rule needs this block's id, its successor or a ring neighbour, there is one. -/

namespace Sys2Proof.Machine

open Sys2Proof

/-! ## A flow that answers a next state -/

/-- The flow goes on or has ended; it has met no unreachable situation. -/
def Flow.Answers : Flow → Prop
  | .go _ => True
  | .ended _ => True
  | .fault _ => False

@[simp] theorem Flow.answers_go (s : State) : (Flow.go s).Answers := trivial
@[simp] theorem Flow.answers_ended (s : State) : (Flow.ended s).Answers := trivial

theorem Flow.Answers.outcome {m : Flow} (h : m.Answers) : ∃ t, m.outcome = .next t := by
  cases m with
  | go t => exact ⟨t, rfl⟩
  | ended t => exact ⟨t, rfl⟩
  | fault r => exact h.elim

/-- `SEND` itself never faults. -/
theorem send_bind_answers {k : State → Flow} (cmd : BitVec 4) (dest : StationId) (bc : Bool) (d : List Byte) (s : State)
    (hk : ∀ t, (k t).Answers) : ((send cmd dest bc d s).bind k).Answers := by
  rcases send_cases cmd dest bc d s with h | ⟨room, -, -, h⟩ <;> rw [h]
  · exact hk _
  · trivial

theorem protocolTimeout_answers {k : State → Flow} (s : State)
    (hk : ∀ n, (k { s with ctl := { s.ctl with toCount := n } }).Answers) : (protocolTimeout s k).Answers := by
  rw [protocolTimeout_eq]
  split
  · trivial
  · exact hk _

/-- A joiner that waits on (R193 to R195). -/
theorem rearmed_answers (k : TimerKind) (s : State) : (protocolTimeout s fun t => .go (t.arm k)).Answers :=
  protocolTimeout_answers s fun _ => trivial

/-- A station with a successor passes the token, or takes it again alone (R188, R192). -/
theorem passToken_answers {s : State} (h : s.ctl.successor ≠ none) : (passToken s).Answers := by
  rcases passToken_cases s with ⟨-, hp⟩ | ⟨-, hnone, -⟩ | ⟨-, x, -, hp⟩ | ⟨-, x, room, -, -, -, hp⟩
  · simp [hp]
  · exact absurd hnone h
  · simp [hp]
  · simp [hp]

/-! ## The ring of a station with an id (R197) -/

theorem ring_ne_zero {s : State} (h : s.ctl.ownId ≠ none) : s.ring ≠ 0#64 := by
  obtain ⟨me, hme⟩ := Option.ne_none_iff_exists'.1 h
  have hmem : member s.ring me = true := by
    simp only [State.ring, hme]
    exact (member_insertId _ _ _).2 (.inr rfl)
  intro hzero
  simp [hzero, member] at hmem

/-! ## The rules of the frame kinds -/

theorem answerSolicit_answers (h : Header) (s : State) : (answerSolicit h s).Answers := by
  unfold answerSolicit
  split
  · exact send_bind_answers _ _ _ _ _ fun _ => trivial
  · trivial

theorem sensingTraffic_answers (f : Frame) (s : State) : (sensingTraffic f s).Answers := by
  unfold sensingTraffic
  simp only
  split
  · exact answerSolicit_answers _ _
  · trivial

section
variable {s : State}

/-- R240: the station that waits for its first token has a successor to pass it to. -/
theorem tokenRule_answers (h : RoleInv s.params s.ctl) (hdr : Header) : (tokenRule hdr s).Answers := by
  unfold tokenRule
  split
  · split
    · split <;> trivial
    · split <;> trivial
    · next hc => exact passToken_answers (h.ring_id (by simp [hc, CState.inRing])).2
    · trivial
  · trivial

theorem solicitRule_answers (hdr : Header) : (solicitRule hdr s).Answers := by
  unfold solicitRule
  split
  · exact answerSolicit_answers _ _
  · trivial
  · trivial

theorem getAddressRule_answers (hdr : Header) : (getAddressRule hdr s).Answers := by
  unfold getAddressRule
  split
  · split
    · trivial
    · exact send_bind_answers _ _ _ _ _ fun _ => send_bind_answers _ _ _ _ _ fun _ => trivial
  · trivial

theorem addressOfferedRule_answers (hdr : Header) : (addressOfferedRule hdr s).Answers := by
  unfold addressOfferedRule
  split <;> trivial

theorem setAddressRule_answers (hdr : Header) (d : List Byte) : (setAddressRule hdr d s).Answers := by
  unfold setAddressRule
  split
  · trivial
  · split
    · exact send_bind_answers _ _ _ _ _ fun _ => trivial
    · trivial

/-- R246: the master's ring has a successor for every id. -/
theorem addressSetRule_answers (h : RoleInv s.params s.ctl) (hdr : Header) : (addressSetRule hdr s).Answers := by
  unfold addressSetRule
  split
  · next hcond =>
    have hid := (h.ring_id (by simp [hcond.1, CState.inRing])).1
    obtain ⟨succ, hsucc, -⟩ := ringSucc_nearest hdr.src (ring_ne_zero hid)
    simp only [hsucc]
    exact send_bind_answers _ _ _ _ _ fun _ => trivial
  · trivial

theorem setSuccessorRule_answers (hdr : Header) (d : List Byte) : (setSuccessorRule hdr d s).Answers := by
  unfold setSuccessorRule
  split
  · trivial
  · split
    · refine send_bind_answers _ _ _ _ _ fun t => ?_
      simp only
      split <;> trivial
    · trivial

/-- R248: the master's ring has a predecessor for every id, and the master a successor. -/
theorem successorSetRule_answers (h : RoleInv s.params s.ctl) (hdr : Header) : (successorSetRule hdr s).Answers := by
  unfold successorSetRule
  split
  · next hcond =>
    obtain ⟨hid, hsuccessor⟩ := h.ring_id (by simp [hcond.1, CState.inRing])
    split
    · split
      · obtain ⟨pred, hpred, -⟩ := ringPred_nearest hdr.src (ring_ne_zero hid)
        simp only [hpred]
        split
        · exact passToken_answers nofun
        · exact send_bind_answers _ _ _ _ _ fun _ => trivial
      · trivial
    · split
      · exact passToken_answers hsuccessor
      · trivial
    · trivial
  · trivial

theorem kindRule_answers (h : RoleInv s.params s.ctl) (f : Frame) : (kindRule f s).Answers := by
  cases f with
  | headerOnly hdr => exact tokenRule_answers h hdr
  | command f =>
    generalize hk : kindRule (.command f) = rule
    simp only [kindRule] at hk
    split at hk <;> subst hk
    · exact solicitRule_answers _
    · exact getAddressRule_answers _
    · exact addressOfferedRule_answers _
    · exact setAddressRule_answers _ _
    · exact addressSetRule_answers h _
    · exact setSuccessorRule_answers _ _
    · exact successorSetRule_answers h _
    · trivial

theorem dispatchFrame_answers (h : RoleInv s.params s.ctl) (f : Frame) :
    (dispatchFrame f (kindRule f) s).Answers := by
  rcases dispatchFrame_cases f (kindRule f) s with ⟨-, hd⟩ | ⟨-, hd⟩ | ⟨-, -, -, hd⟩ | ⟨-, -, -, hd⟩ <;> rw [hd]
  · trivial
  · exact sensingTraffic_answers f s
  · trivial
  · exact kindRule_answers h f

/-! ## The timers and the tenure -/

/-- R176: only the master's token pass needs a ring id, and a master has a successor. -/
theorem timeoutRule_answers (h : RoleInv s.params s.ctl) (k : TimerKind) : (timeoutRule k s).Answers := by
  unfold timeoutRule
  split
  case h_1 hc => exact absurd hc h.reachable
  case h_3 | h_4 | h_5 => exact rearmed_answers _ _
  case h_8 => split <;> trivial
  case h_9 hc =>
    have hsuccessor := (h.ring_id (by simp [hc, CState.inRing])).2
    split
    · exact passToken_answers hsuccessor
    · trivial
  case h_10 hc =>
    have hsuccessor := (h.ring_id (by simp [hc, CState.inRing])).2
    have habandon : (abandonJoin s).Answers := protocolTimeout_answers _ fun _ => passToken_answers hsuccessor
    split
    case h_4 => trivial
    all_goals exact habandon
  all_goals trivial

/-- R187: a station that holds the token has an id for the drain and a successor for the pass. -/
theorem tenureStep_answers (h : RoleInv s.params s.ctl) (he : s.tenureEnabled = true) : (tenureStep s).Answers := by
  obtain ⟨-, -, hrole⟩ := (tenureEnabled_iff s).1 he
  have hring : s.ctl.cstate.inRing = true := by
    rcases hrole with ⟨hc, -⟩ | hc <;> simp [hc, CState.inRing]
  obtain ⟨hid, hsuccessor⟩ := h.ring_id hring
  obtain ⟨me, hme⟩ := Option.ne_none_iff_exists'.1 hid
  have hdrain := drainQueue_keeps (fun t => t.ctl.successor ≠ none) (fun _ _ ht => ht) (fun _ _ _ ht => ht)
    (fun _ _ _ _ ht => ht) me s.ctl.txq s.params.maxTxPerToken s rfl hsuccessor
  unfold tenureStep
  rw [hme]
  rcases hdrain with ⟨t, hd, ht⟩ | ⟨t, hd, -⟩ <;> rw [hd]
  · simp only [Flow.bind_go]
    split
    · exact send_bind_answers _ _ _ _ _ fun _ => trivial
    · exact passToken_answers ht
  · trivial

/-! ## The events -/

theorem readingCState_answers {k : State → Result} (hb : s.ctl.cstate ≠ .broadcastingStationId)
    (hk : ∃ t, k s = .next t) : ∃ t, readingCState k s = .next t := by
  unfold readingCState
  split
  · next hc => exact absurd hc hb
  · exact hk

/-- A read (R265, R266, R274). -/
theorem reply_answers {hop : Byte} {value : State → HostValue} (hb : s.ctl.cstate ≠ .broadcastingStationId) :
    ∃ t, readingCState (fun s => .next (s.reply hop .ok (value s))) s = .next t :=
  readingCState_answers hb ⟨_, rfl⟩

/-- A host operation answers its caller wherever CSTATE may be read (R275). -/
theorem exec_host_answers {i : Instr} (hi : i.frame? = none) (hb : s.ctl.cstate ≠ .broadcastingStationId) :
    ∃ t, exec i s = .next t := by
  cases i
  case openDevice d =>
    show ∃ t, execOpenDevice d s = .next t
    unfold execOpenDevice
    split_ifs <;> exact ⟨_, rfl⟩
  case start =>
    show ∃ t, execStart s = .next t
    unfold execStart
    split_ifs
    · exact ⟨_, rfl⟩
    · exact ⟨_, rfl⟩
    · refine readingCState_answers hb ?_
      split_ifs <;> exact ⟨_, rfl⟩
  case getState => exact reply_answers (value := fun s => .stateCode s.ctl.cstate.code) hb
  case isReady => exact reply_answers (value := fun s => .ready s.ready) hb
  case readStatus => exact reply_answers (value := fun s => .statusRecord s.statusRecord) hb
  case decodeHeader bs => cases hr : decodeHeaderBytes s.params bs with
    | ok d => exact ⟨_, exec_decodeHeader_ok hr⟩
    | error k => exact ⟨_, exec_decodeHeader_error hr⟩
  case decodeFrame bs => cases hr : decodeFrameBytes s.params bs with
    | ok d => exact ⟨_, exec_decodeFrame_ok hr⟩
    | error k => exact ⟨_, exec_decodeFrame_error hr⟩
  case enqueueFrame | sendFrame | waitForCommandFrame | readCounters | waitForToken | encodeHeader |
      encodeCommandFrame | reset => exact ⟨_, rfl⟩
  all_goals cases hi

theorem hostCallEvent_answers (hb : s.ctl.cstate ≠ .broadcastingStationId) (r : HostRequest) :
    ∃ t, hostCallEvent r s = .next t := by
  unfold hostCallEvent
  split
  · next i hi => exact exec_host_answers (decodeHost_ok hi).1 hb
  · exact ⟨_, rfl⟩

theorem activity_ne_unreachable (hb : s.ctl.cstate ≠ .broadcastingStationId) : s.activity ≠ .unreachable := by
  unfold State.activity
  split
  · nofun
  · split
    · nofun
    · next hc => exact absurd hc hb
    · nofun

theorem whileActive_answers {k : State → Result} (hb : s.ctl.cstate ≠ .broadcastingStationId)
    (hk : ∃ t, k s = .next t) : ∃ t, whileActive k s = .next t := by
  unfold whileActive
  split
  · exact ⟨s, rfl⟩
  · next hact => exact absurd hact (activity_ne_unreachable hb)
  · exact hk

theorem deliver_answers (h : RoleInv s.params s.ctl) (f : Frame) : ∃ t, deliver f (kindRule f) s = .next t := by
  rcases deliver_cases f (kindRule f) s with ⟨-, hd⟩ | ⟨hact, -⟩ | ⟨-, hd⟩
  · exact ⟨s, hd⟩
  · exact absurd hact (activity_ne_unreachable h.reachable)
  · rw [hd]
    have hrec : RoleInv (recordFrame f s).params (recordFrame f s).ctl := by simpa using { h with }
    exact (dispatchFrame_answers hrec f).outcome

theorem rxByteEvent_answers (h : RoleInv s.params s.ctl) (b : Byte) : ∃ t, rxByteEvent b s = .next t := by
  unfold rxByteEvent
  split
  · exact ⟨_, rfl⟩
  · next r f _ =>
    rw [exec_of_frame _ f _ (frame?_ofFrame f)]
    exact deliver_answers (s := { s with rx := r }) h f
  · exact ⟨_, rfl⟩

theorem controllerStep_answers {enabled : State → Bool} {k : State → Flow}
    (hb : s.ctl.cstate ≠ .broadcastingStationId) (hk : enabled s = true → (k s).Answers) :
    ∃ t, controllerStep enabled k s = .next t := by
  rcases controllerStep_cases enabled k s with ⟨-, h⟩ | ⟨-, hc, -⟩ | ⟨-, -, -, h⟩ | ⟨-, -, he, h⟩
  · exact ⟨s, h⟩
  · exact absurd hc hb
  · exact ⟨s, h⟩
  · rw [h]
    exact (hk he).outcome

/-- Whatever the event, a block whose role registers belong to its state answers a next state. -/
theorem handle_answers (h : RoleInv s.params s.ctl) (e : Event) : ∃ t, handle e s = .next t := by
  have hb := h.reachable
  cases e with
  | rxByte b => exact whileActive_answers hb (rxByteEvent_answers h b)
  | rxIdle =>
    exact whileActive_answers (k := fun s => .next { s with rx := receiveIdle s.rx }) hb ⟨_, rfl⟩
  | rxFail =>
    exact whileActive_answers (k := fun s => .next (transportError .read s)) hb ⟨_, rfl⟩
  | timeout k => exact controllerStep_answers hb fun _ => timeoutRule_answers (s := s.disarm) { h with } k
  | tenure => exact controllerStep_answers hb (tenureStep_answers h)
  | errorExit => exact controllerStep_answers (k := fun s => .go (errorExit s)) hb fun _ => trivial
  | hostCall r => exact hostCallEvent_answers hb r
  | waitReturn w ret => simp only [handle]; split <;> exact ⟨_, rfl⟩
  | takeFrame => simp only [handle]; split <;> exact ⟨_, rfl⟩
  | transport openOk writeRoom => exact ⟨_, rfl⟩

end

/-- Settles O51: of the invariant only the role registers matter, and one lemma for each rule says what it needs. -/
theorem noStepFaultsUnderTheInvariant : Obligations.NoStepFaultsUnderTheInvariant := by
  intro s h
  cases hs : s.env.schedule with
  | nil => exact ⟨s, step_idle s hs⟩
  | cons e rest =>
    rw [step_event s e rest hs]
    exact handle_answers (s := s.withSchedule rest) h.role e

end Sys2Proof.Machine
end

section
/-! Every change of CSTATE is logged (spec/42_arbitration.md R172): a rule either keeps CSTATE and logs at most that the
block has stopped (spec/60_exceptions.md R293), or assigns it once, with its record. -/

namespace Sys2Proof.Machine

open Sys2Proof

/-! ## The log against CSTATE -/

/-- The record is the fatal record of a block in the state `c` (R293). -/
def LogRecord.isFatalIn (r : LogRecord) (c : CState) : Prop :=
  r.fromState = c ∧ r.toState = c ∧ ∃ kind, r.cause = .fatal kind

/-- CSTATE is as it was, and only fatal records are new. -/
def KeepsCState (s t : State) : Prop :=
  t.ctl.cstate = s.ctl.cstate ∧
    ∃ new, t.out.logOut = s.out.logOut ++ new ∧ ∀ r ∈ new, r.isFatalIn s.ctl.cstate

/-- CSTATE has changed, and a record of the change is new. -/
def ChangesCState (s t : State) : Prop :=
  t.ctl.cstate ≠ s.ctl.cstate ∧
    ∃ new c, t.out.logOut = s.out.logOut ++ new ∧ ⟨s.ctl.cstate, t.ctl.cstate, c⟩ ∈ new

/-- What R172 allows a step. -/
def LogsCState (s t : State) : Prop := KeepsCState s t ∨ ChangesCState s t

section
variable {s t u : State}

theorem KeepsCState.of_eq (hc : t.ctl.cstate = s.ctl.cstate) (hl : t.out.logOut = s.out.logOut) : KeepsCState s t :=
  ⟨hc, [], by simp [hl]⟩

theorem KeepsCState.refl (s : State) : KeepsCState s s := .of_eq rfl rfl

theorem KeepsCState.trans (h : KeepsCState s t) (k : KeepsCState t u) : KeepsCState s u := by
  obtain ⟨hc, new, hl, hnew⟩ := h
  obtain ⟨kc, more, kl, hmore⟩ := k
  refine ⟨kc.trans hc, new ++ more, by rw [kl, hl, List.append_assoc], fun r hr => ?_⟩
  rcases List.mem_append.1 hr with hr | hr
  exacts [hnew r hr, hc ▸ hmore r hr]

theorem LogsCState.of_eq (hc : t.ctl.cstate = s.ctl.cstate) (hl : t.out.logOut = s.out.logOut) : LogsCState s t :=
  .inl (.of_eq hc hl)

theorem LogsCState.refl (s : State) : LogsCState s s := .inl (.refl s)

/-- A change of CSTATE after steps that keep it. -/
theorem KeepsCState.trans_logs (h : KeepsCState s t) (k : LogsCState t u) : LogsCState s u := by
  rcases k with k | ⟨hne, more, c, kl, hmem⟩
  · exact .inl (h.trans k)
  · obtain ⟨hc, new, hl, -⟩ := h
    rw [hc] at hne hmem
    exact .inr ⟨hne, new ++ more, c, by rw [kl, hl, List.append_assoc], List.mem_append_right _ hmem⟩

/-- A change of CSTATE before steps that keep it. -/
theorem LogsCState.trans_keeps (h : LogsCState s t) (k : KeepsCState t u) : LogsCState s u := by
  rcases h with h | ⟨hne, new, c, hl, hmem⟩
  · exact .inl (h.trans k)
  · obtain ⟨hc, more, kl, -⟩ := k
    refine .inr ⟨hc ▸ hne, new ++ more, c, by rw [kl, hl, List.append_assoc], List.mem_append_left _ ?_⟩
    rwa [hc]

/-- One assignment with its record (R172). -/
theorem LogsCState.of_record {c : LogCause} (hne : t.ctl.cstate ≠ s.ctl.cstate)
    (hl : t.out.logOut = s.out.logOut ++ [⟨s.ctl.cstate, t.ctl.cstate, c⟩]) : LogsCState s t :=
  .inr ⟨hne, _, c, hl, List.mem_singleton.2 rfl⟩

/-! ## The shared operations -/

theorem LogsCState.enterError (h : s.ctl.cstate ≠ .error) (cause : ErrorCause) : LogsCState s (enterError cause s) :=
  .of_record (c := .stateError cause) h.symm rfl

theorem LogsCState.enterSensing (h : s.ctl.cstate ≠ .sensing) (w : LogCause) : LogsCState s (enterSensing w s) :=
  .of_record (c := w) h.symm rfl

theorem KeepsCState.transportError (kind : TransportErrorKind) (s : State) :
    KeepsCState s (transportError kind s) :=
  ⟨rfl, [_], rfl, fun r hr => by rw [List.mem_singleton.1 hr]; exact ⟨rfl, rfl, kind, rfl⟩⟩

theorem KeepsCState.cutOff (room : Nat) (bs : List Byte) (s : State) : KeepsCState s (s.cutOff room bs) :=
  .transportError .write _

/-- A rule that keeps CSTATE after what kept it already. -/
theorem KeepsCState.after {m : Flow} (hm : m.Yields (KeepsCState t)) (h : KeepsCState s t) :
    m.Yields (KeepsCState s) :=
  hm.imp fun _ => h.trans

theorem KeepsCState.logs {m : Flow} (hm : m.Yields (KeepsCState s)) : m.Yields (LogsCState s) :=
  hm.imp fun _ => .inl

/-- `SEND` in a rule that has kept CSTATE so far. -/
theorem KeepsCState.send_bind {k : State → Flow} {cmd : BitVec 4} {dest : StationId} {bc : Bool} {d : List Byte}
    (h : KeepsCState s t) (hk : ∀ bs, (k (t.sent bs)).Yields (KeepsCState s)) :
    ((send cmd dest bc d t).bind k).Yields (KeepsCState s) :=
  send_bind_yields cmd dest bc d t hk fun room bs => h.trans (cutOff room bs t)

theorem passed_cstate (s : State) : s.passed.ctl.cstate = s.ctl.cstate := by
  unfold State.passed
  split <;> rfl

theorem KeepsCState.passToken (s : State) : (passToken s).Yields (KeepsCState s) :=
  passToken_yields s (fun _ => of_eq rfl rfl) (fun _ => of_eq (passed_cstate s) rfl)
    fun room bs => cutOff room bs (dropToken s)

/-- R178, in every state but Error. -/
theorem LogsCState.protocolTimeout {k : State → Flow} (he : s.ctl.cstate ≠ .error)
    (hk : ∀ t, KeepsCState s t → (k t).Yields (KeepsCState s)) : (protocolTimeout s k).Yields (LogsCState s) :=
  protocolTimeout_yields s (enterError he _) fun _ => KeepsCState.logs (hk _ (.of_eq rfl rfl))

/-! ## The rules of the frame kinds that keep CSTATE -/

theorem KeepsCState.answerSolicit (h : Header) (s : State) : (answerSolicit h s).Yields (KeepsCState s) := by
  unfold Machine.answerSolicit
  split
  · exact send_bind (of_eq rfl rfl) fun _ => of_eq rfl rfl
  · exact refl s

theorem KeepsCState.getAddressRule (h : Header) (s : State) : (getAddressRule h s).Yields (KeepsCState s) := by
  unfold Machine.getAddressRule
  split
  · split
    · exact refl s
    · exact send_bind (of_eq rfl rfl) fun _ => send_bind (of_eq rfl rfl) fun _ => of_eq rfl rfl
  · exact refl s

theorem KeepsCState.setAddressRule (h : Header) (d : List Byte) (s : State) :
    (setAddressRule h d s).Yields (KeepsCState s) := by
  unfold Machine.setAddressRule
  split
  · exact refl s
  · split
    · exact send_bind (of_eq rfl rfl) fun _ => of_eq rfl rfl
    · exact refl s

theorem KeepsCState.addressSetRule (h : Header) (s : State) : (addressSetRule h s).Yields (KeepsCState s) := by
  unfold Machine.addressSetRule
  split
  · split
    · trivial
    · exact send_bind (refl s) fun _ => of_eq rfl rfl
  · exact refl s

theorem KeepsCState.successorSetRule (h : Header) (s : State) : (successorSetRule h s).Yields (KeepsCState s) := by
  unfold Machine.successorSetRule
  split
  · split
    · split
      · split
        · trivial
        · simp only
          split
          · exact after (passToken _) (of_eq rfl rfl)
          · exact send_bind (of_eq rfl rfl) fun _ => of_eq rfl rfl
      · exact refl s
    · split
      · exact after (passToken _) (of_eq rfl rfl)
      · exact refl s
    · exact refl s
  · exact refl s

/-! ## The rules that assign CSTATE -/

namespace LogsCState

/-- R185. -/
theorem sensingTraffic (hc : s.ctl.cstate = .sensing) (f : Frame) : (sensingTraffic f s).Yields (LogsCState s) := by
  have hjoin : LogsCState s { s.setCState .slaveWaitingToJoin .r185 with
      ctl := { s.ctl with cstate := .slaveWaitingToJoin, peer := none, timer := some .joinWait } } :=
    of_record (c := .r185) (by simp [hc]) rfl
  unfold Machine.sensingTraffic
  simp only
  split
  · exact (KeepsCState.answerSolicit _ _).imp fun _ => hjoin.trans_keeps
  · exact hjoin

/-- R240: the first token makes a slave of the station, and it passes the token on. -/
theorem tokenRule (he : s.ctl.cstate ≠ .error) (h : Header) : (tokenRule h s).Yields (LogsCState s) := by
  unfold Machine.tokenRule
  split
  · split
    · split
      · exact of_eq rfl rfl
      · exact enterError he _
    · split
      · exact enterError he _
      · exact of_eq rfl rfl
    · next hc =>
      refine (KeepsCState.passToken _).imp fun _ => trans_keeps ?_
      exact of_record (c := .r240) (by simp [hc]) rfl
    · exact refl s
  · exact refl s

theorem solicitRule (he : s.ctl.cstate ≠ .error) (h : Header) : (solicitRule h s).Yields (LogsCState s) := by
  unfold Machine.solicitRule
  split
  · exact KeepsCState.logs (KeepsCState.answerSolicit h s)
  · exact enterError he _
  · exact refl s

/-- R244. -/
theorem addressOfferedRule (h : Header) : (addressOfferedRule h s).Yields (LogsCState s) := by
  unfold Machine.addressOfferedRule
  split
  · next hcond => exact of_record (c := .r244) (by simp [hcond.1]) rfl
  · exact refl s

/-- R247: a joiner that has its successor waits for its first token. -/
theorem setSuccessorRule (h : Header) (d : List Byte) : (setSuccessorRule h d s).Yields (LogsCState s) := by
  unfold Machine.setSuccessorRule
  split
  · exact refl s
  · split
    · refine send_bind_yields _ _ _ _ _ (fun bs => ?_) fun room bs => .inl (.cutOff room bs _)
      simp only
      split
      · next hj => exact of_record (c := .r247) (by simp [show s.ctl.cstate = .slaveJoining from hj]) rfl
      · exact of_eq rfl rfl
    · exact refl s

theorem kindRule (he : s.ctl.cstate ≠ .error) (f : Frame) : (kindRule f s).Yields (LogsCState s) :=
  kindRule_yields f s (tokenRule he) (solicitRule he) (fun h => KeepsCState.logs (KeepsCState.getAddressRule h s))
    addressOfferedRule (fun h d => KeepsCState.logs (KeepsCState.setAddressRule h d s))
    (fun h => KeepsCState.logs (KeepsCState.addressSetRule h s)) setSuccessorRule
    (fun h => KeepsCState.logs (KeepsCState.successorSetRule h s)) (refl s)

theorem dispatchFrame (f : Frame) : (dispatchFrame f (Machine.kindRule f) s).Yields (LogsCState s) := by
  rcases dispatchFrame_cases f (Machine.kindRule f) s with
    ⟨-, h⟩ | ⟨hc, h⟩ | ⟨he, -, -, h⟩ | ⟨he, -, -, h⟩ <;> rw [h]
  · exact refl s
  · exact sensingTraffic hc f
  · exact enterError he _
  · exact kindRule he f

/-- R180. -/
theorem checksumFail (s : State) : LogsCState s (checksumFail s) := by
  have counted (he : s.ctl.cstate ≠ .error) :
      LogsCState s (if s.params.nChkFail ≤ (s.ctl.ckCount + 1#32).toNat then
        Machine.enterError .repeatedChecksum { s with ctl := { s.ctl with ckCount := s.ctl.ckCount + 1#32 } }
      else { s with ctl := { s.ctl with ckCount := s.ctl.ckCount + 1#32 } }) := by
    split
    · rw [enterError_ckCount]
      exact enterError he _
    · exact of_eq rfl rfl
  unfold Machine.checksumFail
  split
  case h_7 => exact refl s
  all_goals next hc => exact counted (by simp [hc])

/-! ## The timers, the tenure and the exit from Error -/

theorem rearmed (he : s.ctl.cstate ≠ .error) (k : TimerKind) :
    (Machine.protocolTimeout s fun t => .go (t.arm k)).Yields (LogsCState s) :=
  protocolTimeout he fun _ ht => ht.trans (.of_eq rfl rfl)

/-- R190. -/
theorem abandonJoin (he : s.ctl.cstate ≠ .error) : (abandonJoin s).Yields (LogsCState s) :=
  (protocolTimeout (s := { s with ctl := { s.ctl with pending := none, pendingPred := none } }) he
    fun t ht => KeepsCState.after (KeepsCState.passToken t) ht).imp fun _ => (KeepsCState.of_eq rfl rfl).trans_logs

/-- R194. -/
theorem joinReplyExpired (he : s.ctl.cstate ≠ .error) : (joinReplyExpired s).Yields (LogsCState s) :=
  (rearmed (s := { s with ctl := { s.ctl with peer := none } }) he .joinWait).imp
    fun _ => (KeepsCState.of_eq rfl rfl).trans_logs

theorem tokenLost (he : s.ctl.cstate ≠ .error) : (tokenLost s).Yields (LogsCState s) := enterError he _

theorem timeoutRule (k : TimerKind) (s : State) : (timeoutRule k s).Yields (LogsCState s) := by
  unfold Machine.timeoutRule
  split
  · trivial
  · next hc => exact of_record (c := .r186) (by simp [hc]) rfl
  · next hc => exact rearmed (by simp [hc]) .joinWait
  · next hc => exact joinReplyExpired (by simp [hc])
  · next hc => exact rearmed (by simp [hc]) .resp
  · next hc => exact tokenLost (by simp [hc])
  · next hc => exact tokenLost (by simp [hc])
  · next hc =>
    split
    · exact tokenLost (by simp [hc])
    · exact refl s
  · split
    · exact KeepsCState.logs (KeepsCState.passToken s)
    · exact refl s
  · next hc =>
    have habandon : (Machine.abandonJoin s).Yields (LogsCState s) := abandonJoin (by simp [hc])
    split
    case h_4 => exact refl s
    all_goals exact habandon
  · exact refl s

end LogsCState

/-- R187, R189. -/
theorem KeepsCState.tenureStep (s : State) : (tenureStep s).Yields (KeepsCState s) := by
  refine drainQueue_bind_yields (P := KeepsCState s) (fun t bs h => h.trans (of_eq rfl rfl))
    (fun t f rest _ h => h.trans (of_eq rfl rfl)) (fun t room bs h => h.trans (cutOff room bs t)) (fun t h => ?_)
    _ _ _ s rfl (refl s)
  split
  · exact send_bind h fun _ => h.trans (of_eq rfl rfl)
  · exact after (passToken t) h

/-! ## The events -/

namespace LogsCState

theorem of_hostEffect (h : HostEffect s t) : LogsCState s t := by
  cases h
  case started hf ho hc => exact of_record (c := .start) (by simp [hc]) rfl
  all_goals exact of_eq rfl rfl

/-- Every event but the host's `reset` logs its change of CSTATE. -/
theorem of_handled {e : Event} (hr : ∀ r, e = .hostCall r → r.hop ≠ 0x0E#8) (h : Handled s e t) : LogsCState s t := by
  cases h
  case frameReceived r f ha hb ht =>
    have hrec : KeepsCState s (recordFrame f { s with rx := r }) := .of_eq (by simp) (by simp)
    exact hrec.trans_logs ((dispatchFrame f).of_outcome ht)
  case frameSpoilt r ha hb => exact checksumFail { s with rx := r }
  case readFailed => exact .inl (.transportError _ s)
  case expired k he ht => exact (timeoutRule k s.disarm).of_outcome ht
  case tenure ht => exact .inl ((KeepsCState.tenureStep s).of_outcome ht)
  case errorExit he => exact enterSensing (by simp [((errorExitEnabled_iff s).1 he).2.1]) _
  case hostReset r hop => exact absurd hop (hr r rfl)
  case hostEffect h => exact of_hostEffect h
  all_goals exact of_eq rfl rfl

end LogsCState

end

/-- Settles O55: one lemma for each rule says which of the two it does, and each event runs one rule. -/
theorem everyStateChangeIsLogged : Obligations.EveryStateChangeIsLogged := by
  intro s t hr h
  have hlogs : LogsCState s t := by
    rcases handled_of_step h with rfl | ⟨e, rest, hs, he⟩
    · exact .refl t
    · exact LogsCState.of_handled (s := s.withSchedule rest) (hop_of_not_resetNext hs hr) he
  rcases hlogs with ⟨hc, new, hl, hnew⟩ | ⟨hne, new, c, hl, hmem⟩
  · exact ⟨new, hl, fun hne => absurd hc hne, fun _ => hnew⟩
  · exact ⟨new, hl, fun _ => ⟨c, hmem⟩, fun hc => absurd hc hne⟩

end Sys2Proof.Machine
end

section
/-! The expiries of the protocol timer (spec/42_arbitration.md R176, R186, R190 to R196) and the Tenure step (R187,
R189). -/

namespace Sys2Proof.Machine

open Sys2Proof

/-! ## The timer (R176) -/

section
variable {s : State} {rest : List Event}

/-- The timer of a running block expires: it is disarmed, and its rule runs. -/
theorem step_timeout {k : TimerKind} (hs : s.env.schedule = .timeout k :: rest) (hf : s.fatal = false)
    (hk : s.ctl.timer = some k) (hb : s.ctl.cstate ≠ .broadcastingStationId) {m : Flow}
    (hrule : timeoutRule k (s.withSchedule rest).disarm = m) : step s = m.outcome := by
  have hen : (s.withSchedule rest).timeoutEnabled k = true := (timeoutEnabled_iff k _).2 ⟨hf, hk⟩
  rw [step_event s _ rest hs]
  rcases controllerStep_cases (State.timeoutEnabled k) (timeoutStep k) (s.withSchedule rest) with
    ⟨hc, -⟩ | ⟨-, hc, -⟩ | ⟨-, -, hc, -⟩ | ⟨-, -, -, h⟩
  · cases hf.symm.trans hc
  · exact absurd hc hb
  · cases hen.symm.trans hc
  · rw [← hrule]
    exact h

/-! ## The rule for each state and timer (R186, R190 to R196) -/

theorem timeoutRule_sense (hc : s.ctl.cstate = .sensing) : timeoutRule .sense s = .go (selfElect s) := by
  simp [timeoutRule, hc]

theorem timeoutRule_joinWait (hc : s.ctl.cstate = .slaveWaitingToJoin) :
    timeoutRule .joinWait s = joinWaitExpired s := by
  simp [timeoutRule, hc]

theorem timeoutRule_joinReply (hc : s.ctl.cstate = .slaveWaitingToJoin) :
    timeoutRule .resp s = joinReplyExpired s := by
  simp [timeoutRule, hc]

theorem timeoutRule_joining (hc : s.ctl.cstate = .slaveJoining) : timeoutRule .resp s = joiningExpired s := by
  simp [timeoutRule, hc]

theorem timeoutRule_token (hc : s.ctl.cstate = .slave ∨ s.ctl.cstate = .slaveWaitingForFirstToken ∨
    s.ctl.cstate = .master ∧ s.ctl.mphase = .mIdle) : timeoutRule .token s = tokenLost s := by
  rcases hc with hc | hc | ⟨hc, hm⟩
  · simp [timeoutRule, hc]
  · simp [timeoutRule, hc]
  · simp [timeoutRule, hc, hm]

theorem timeoutRule_joinWin (hc : s.ctl.cstate = .master) (hm : s.ctl.mphase = .mSolicit) :
    timeoutRule .joinWin s = passToken s := by
  simp [timeoutRule, hc, hm]

theorem timeoutRule_dialogue (hc : s.ctl.cstate = .master)
    (hm : s.ctl.mphase = .mWaitDevAck ∨ s.ctl.mphase = .mWaitSuccAck ∨ s.ctl.mphase = .mWaitPredAck) :
    timeoutRule .resp s = abandonJoin s := by
  rcases hm with hm | hm | hm <;> simp [timeoutRule, hc, hm]

/-- `PROTOCOL_TIMEOUT` with a timer to arm again (R178, R193 to R195). -/
theorem rearmed_outcome (k : TimerKind) (s : State) :
    (protocolTimeout s fun t => .go (t.arm k)).outcome = .next
      (if s.params.nTimeout ≤ (s.ctl.toCount + 1#32).toNat then
        enterError .repeatedTimeouts { s with ctl := { s.ctl with toCount := s.ctl.toCount + 1#32 } }
      else { s with ctl := { s.ctl with toCount := s.ctl.toCount + 1#32, timer := some k } }) := by
  rw [protocolTimeout_eq]
  split <;> rfl

/-- R190: below the threshold the dialogue is cleared, the timeout counted and the token passed. -/
theorem abandonJoin_of_lt (hlt : (s.ctl.toCount + 1#32).toNat < s.params.nTimeout) :
    abandonJoin s = passToken { s with
      ctl := { s.ctl with pending := none, pendingPred := none, toCount := s.ctl.toCount + 1#32 } } :=
  (protocolTimeout_eq _ passToken).trans (if_neg (Nat.not_le_of_lt hlt))

theorem abandonJoin_of_le (hle : s.params.nTimeout ≤ (s.ctl.toCount + 1#32).toNat) :
    abandonJoin s = .ended (enterError .repeatedTimeouts { s with
      ctl := { s.ctl with pending := none, pendingPred := none, toCount := s.ctl.toCount + 1#32 } }) :=
  (protocolTimeout_eq _ passToken).trans (if_pos hle)

/-- A lone master takes its own token again (R188, R192). -/
theorem passToken_alone_outcome (h : s.ctl.successor = s.ctl.ownId) :
    (passToken s).outcome = .next { s with
      ctl := { s.ctl with
        holdsToken := true, tokenCounter := s.ctl.tokenCounter + 1#32, mphase := .mDrain, toCount := 0#32
        timer := none }
      waiters := released .tok s.waiters } := by
  rw [passToken_alone s h, ← fireWaiters_eq]
  rfl

/-- A master passes the token to its successor (R188). -/
theorem passToken_master_outcome {me succ : StationId} (hc : s.ctl.cstate = .master) (hme : s.ctl.ownId = some me)
    (hsucc : s.ctl.successor = some succ) (hne : succ ≠ me) (hsend : s.canSend (tokenOnWire s.params me succ)) :
    (passToken s).outcome = .next (State.sent (tokenOnWire s.params me succ) { s with
      ctl := { s.ctl with
        holdsToken := false, timer := some .token, mphase := .mIdle, pending := none, pendingPred := none } }) := by
  rw [passToken_on s me succ hme hsucc hne hsend, State.passed, if_pos hc]
  rfl

/-- A slave likewise, whose phase and dialogue registers a pass does not write. -/
theorem passToken_slave_outcome {me succ : StationId} (hc : s.ctl.cstate = .slave) (hme : s.ctl.ownId = some me)
    (hsucc : s.ctl.successor = some succ) (hne : succ ≠ me) (hsend : s.canSend (tokenOnWire s.params me succ)) :
    (passToken s).outcome = .next (State.sent (tokenOnWire s.params me succ) { s with
      ctl := { s.ctl with holdsToken := false, timer := some .token } }) := by
  rw [passToken_on s me succ hme hsucc hne hsend, State.passed, if_neg (by simp [hc])]
  rfl

end

/-- Settles O40: R186 is the rule of SENSE in Sensing. -/
theorem sensingTimeoutElectsMaster : Obligations.SensingTimeoutElectsMaster := by
  intro s rest hs hf hc hk
  rw [step_timeout hs hf hk (by simp [hc]) (timeoutRule_sense hc), ← fireWaiters_eq, ← hc]
  rfl

/-- Settles O43: R196 is the rule of TOKEN in the three states. -/
theorem lostTokenEntersError : Obligations.LostTokenEntersError := by
  intro s rest hs hf hk hc
  have hb : s.ctl.cstate ≠ .broadcastingStationId := by rcases hc with hc | hc | ⟨hc, -⟩ <;> simp [hc]
  rw [step_timeout hs hf hk hb (timeoutRule_token hc)]
  rfl

/-- Settles O41: the three rules count and arm a timer again; a joiner without its reply clears its peer first. -/
theorem joinerTimeoutsAreCounted : Obligations.JoinerTimeoutsAreCounted := by
  intro s rest k hs hf hk hc
  have hb : s.ctl.cstate ≠ .broadcastingStationId := by rcases hc with ⟨hc, -⟩ | ⟨hc, -⟩ <;> simp [hc]
  dsimp only
  generalize hpeer : (if s.ctl.cstate = .slaveWaitingToJoin ∧ k = .resp then none else s.ctl.peer) = peer
  generalize htimer : (if s.ctl.cstate = .slaveWaitingToJoin then some TimerKind.joinWait else some .resp) = timer
  rcases hc with ⟨hc, rfl | rfl⟩ | ⟨hc, rfl⟩
  · obtain rfl : s.ctl.peer = peer := by simpa using hpeer
    obtain rfl : some .joinWait = timer := by simpa [hc] using htimer
    rw [step_timeout hs hf hk hb (timeoutRule_joinWait hc)]
    exact rearmed_outcome .joinWait (s.withSchedule rest).disarm
  · obtain rfl : none = peer := by simpa [hc] using hpeer
    obtain rfl : some .joinWait = timer := by simpa [hc] using htimer
    rw [step_timeout hs hf hk hb (timeoutRule_joinReply hc)]
    exact rearmed_outcome .joinWait
      { (s.withSchedule rest).disarm with ctl := { s.ctl with timer := none, peer := none } }
  · obtain rfl : s.ctl.peer = peer := by simpa [hc] using hpeer
    obtain rfl : some .resp = timer := by simpa [hc] using htimer
    rw [step_timeout hs hf hk hb (timeoutRule_joining hc)]
    exact rearmed_outcome .resp (s.withSchedule rest).disarm

/-- Settles O42: both expiries come to a token pass, RESP after counting and clearing the dialogue. -/
theorem masterTimeoutsPassTheToken : Obligations.MasterTimeoutsPassTheToken := by
  intro s rest me succ k hs hf hk hc hme hsucc hphase
  have hb : s.ctl.cstate ≠ .broadcastingStationId := by simp [hc]
  rcases hphase with ⟨rfl, hm⟩ | ⟨rfl, hm⟩
  · simp only [reduceCtorEq, if_false, false_imp_iff, true_imp_iff, true_and]
    rw [step_timeout hs hf hk hb (timeoutRule_joinWin hc hm)]
    refine ⟨fun heq => ?_, fun hne hsend => ?_⟩
    · exact passToken_alone_outcome (hsucc.trans (heq ▸ hme.symm))
    · exact passToken_master_outcome hc hme hsucc hne hsend
  · simp only [if_true, true_imp_iff]
    rw [step_timeout hs hf hk hb (timeoutRule_dialogue hc hm)]
    refine ⟨fun hle => ?_, fun hlt heq => ?_, fun hlt hne hsend => ?_⟩
    · rw [abandonJoin_of_le (s := (s.withSchedule rest).disarm) hle]
      rfl
    · rw [abandonJoin_of_lt (s := (s.withSchedule rest).disarm) hlt]
      exact passToken_alone_outcome (hsucc.trans (heq ▸ hme.symm))
    · rw [abandonJoin_of_lt (s := (s.withSchedule rest).disarm) hlt]
      exact passToken_master_outcome hc hme hsucc hne hsend

/-! ## The Tenure step (R187) -/

section
variable {s : State} {rest : List Event}

/-- In a station that holds the token and may use it, Tenure runs its rule (R170). -/
theorem step_tenure (hs : s.env.schedule = .tenure :: rest) (hf : s.fatal = false) (hhold : s.ctl.holdsToken = true)
    (hrole : s.ctl.cstate = .master ∧ s.ctl.mphase = .mDrain ∨ s.ctl.cstate = .slave) :
    step s = (tenureStep (s.withSchedule rest)).outcome := by
  have hen : (s.withSchedule rest).tenureEnabled = true := (tenureEnabled_iff _).2 ⟨hf, hhold, hrole⟩
  rw [step_event s _ rest hs]
  rcases controllerStep_cases State.tenureEnabled tenureStep (s.withSchedule rest) with
    ⟨hc, -⟩ | ⟨-, hc, -⟩ | ⟨-, -, hc, -⟩ | ⟨-, -, -, h⟩
  · cases hf.symm.trans hc
  · rcases hrole with ⟨hm, -⟩ | hm <;> cases hm.symm.trans hc
  · cases hen.symm.trans hc
  · exact h

/-- What a tenure's drain sends (R187). -/
def State.drainedBytes (me : StationId) (s : State) : List Byte :=
  (s.ctl.txq.take (tenureCount s.params s.ctl.txq.length)).flatMap (queuedOnWire s.params me)

/-- The block after its drain: the bytes sent, and the frames gone from the queue. -/
def State.afterDrain (me : StationId) (s : State) : State :=
  (s.pop (tenureCount s.params s.ctl.txq.length)).sent (s.drainedBytes me)

/-- A tenure whose drain the transport accepts goes on with the role's own rule (R187, R189). -/
theorem tenureStep_of_canSend {me : StationId} (hme : s.ctl.ownId = some me) (hsend : s.canSend (s.drainedBytes me)) :
    tenureStep s = if s.ctl.cstate = .master then masterSolicit (s.afterDrain me) else passToken (s.afterDrain me) := by
  have hdrain := drainQueue_of_canSend me s.ctl.txq s.params.maxTxPerToken s rfl hsend
  unfold tenureStep
  rw [hme, hdrain, Flow.bind_go]
  rfl

theorem tenureStep_of_master {me : StationId} (hc : s.ctl.cstate = .master) (hme : s.ctl.ownId = some me)
    (hsend : s.canSend (s.drainedBytes me)) : tenureStep s = masterSolicit (s.afterDrain me) :=
  (tenureStep_of_canSend hme hsend).trans (if_pos hc)

theorem tenureStep_of_slave {me : StationId} (hc : s.ctl.cstate = .slave) (hme : s.ctl.ownId = some me)
    (hsend : s.canSend (s.drainedBytes me)) : tenureStep s = passToken (s.afterDrain me) :=
  (tenureStep_of_canSend hme hsend).trans (if_neg (by simp [hc]))

theorem masterSolicit_outcome {me : StationId} (hme : s.ctl.ownId = some me)
    (hsend : s.canSend (commandOnWire s.params me 0x1#4 0#6 true [])) :
    (masterSolicit s).outcome = .next (State.sent (commandOnWire s.params me 0x1#4 0#6 true []) { s with
      ctl := { s.ctl with mphase := .mSolicit, timer := some .joinWin } }) := by
  rw [masterSolicit, send_from _ _ _ _ s rfl (s.wireId_own me hme) hsend]
  rfl

end

/-- Settles O47: the drain, then R188's pass. -/
theorem slaveTenureDrainsAndPasses : Obligations.SlaveTenureDrainsAndPasses := by
  intro s rest me succ hs hf hc hhold hme hsucc hne n bytes hsend
  obtain ⟨hdrain, htoken⟩ := (State.canSend_append _ _ _).1 hsend
  have hpass := passToken_slave_outcome (s := (s.withSchedule rest).afterDrain me) hc hme hsucc hne htoken
  rw [step_tenure hs hf hhold (.inr hc), tenureStep_of_slave (s := s.withSchedule rest) hc hme hdrain, hpass,
    ← State.sent_sent]
  rfl

/-- Settles O48: the drain, then R189's solicit. -/
theorem masterTenureDrainsAndSolicits : Obligations.MasterTenureDrainsAndSolicits := by
  intro s rest me hs hf hc hm hhold hme n bytes hsend
  obtain ⟨hdrain, hsolicit⟩ := (State.canSend_append _ _ _).1 hsend
  have hsent := masterSolicit_outcome (s := (s.withSchedule rest).afterDrain me) hme hsolicit
  rw [step_tenure hs hf hhold (.inl ⟨hc, hm⟩), tenureStep_of_master (s := s.withSchedule rest) hc hme hdrain, hsent,
    ← State.sent_sent]
  rfl

end Sys2Proof.Machine
end

section
/-! What a valid frame and a checksum failure do before and beside the rules of the frame kinds (spec/42_arbitration.md
R179 to R182, R185). -/

namespace Sys2Proof.Machine

open Sys2Proof

/-! ## Recording a frame (R179) -/

/-- Settles O14: the two formats differ in what a command frame counts. -/
theorem recordingAFrame : Obligations.RecordingAFrame := by
  intro f s
  cases f with
  | headerOnly h => rfl
  | command f =>
    rw [← fireWaiters_eq]
    rfl

/-! ## Checksum failures (R151, R180) -/

section
variable {s : State}

theorem checksumFail_of_error (hc : s.ctl.cstate = .error) : checksumFail s = s := by
  simp [checksumFail, hc]

/-- R180 in the six active states. -/
theorem checksumFail_of_active (hi : s.ctl.cstate ≠ .initial) (hb : s.ctl.cstate ≠ .broadcastingStationId)
    (he : s.ctl.cstate ≠ .error) : checksumFail s =
      if s.params.nChkFail ≤ (s.ctl.ckCount + 1#32).toNat then
        enterError .repeatedChecksum { s with ctl := { s.ctl with ckCount := s.ctl.ckCount + 1#32 } }
      else { s with ctl := { s.ctl with ckCount := s.ctl.ckCount + 1#32 } } := by
  unfold checksumFail
  cases hc : s.ctl.cstate
  case initial => exact absurd hc hi
  case broadcastingStationId => exact absurd hc hb
  case error => exact absurd hc he
  all_goals rfl

/-- The receiver counts a byte that fails a checksum, and waits for the next frame (R151). -/
theorem receiveByte_checksumFail {p : Params} {b : Byte} {r r' : Receiver}
    (h : receiveByte p b r = (r', .checksumFail)) : r'.chkFails = r.chkFails + 1#32 ∧ r'.rstate = .synchronizing := by
  have hcounted := Counted.receiveByte p b r
  rw [h] at hcounted
  cases hcounted
  exact ⟨rfl, rfl⟩

end

/-- Settles O13: the receiver's part from its inversion, the controller's from R180. -/
theorem checksumMismatchIsCounted : Obligations.ChecksumMismatchIsCounted := by
  intro s b rest r hs hrun hi hb hr t u
  obtain ⟨hfails, hstate⟩ := receiveByte_checksumFail hr
  refine ⟨hfails, hstate, ?_⟩
  have hstep : step s = .next (checksumFail t) := by
    rw [step_rxByte hs hrun hi hb]
    simp only [rxByteEvent, hr, t]
  rw [hstep]
  by_cases he : s.ctl.cstate = .error
  · rw [if_pos he, checksumFail_of_error (s := t) he]
  · rw [if_neg he, checksumFail_of_active (s := t) hi hb he]

/-! ## The first frame in Sensing (R185) -/

/-- Among the frame kinds, the one that is a broadcast solicit. -/
theorem isBroadcastSolicit_iff {i : Instr} {f : Frame} (h : i.frame? = some f) :
    isBroadcastSolicit f = true ↔ (∃ d, i = .solicitSuccessorRequest f.hdr d) ∧ f.hdr.bc = true := by
  cases i <;> cases h <;> simp [isBroadcastSolicit, Frame.hdr]

section
variable {s : State}

/-- The block in SlaveWaitingToJoin, as R185 leaves it. -/
def State.awaitsSolicit (s : State) : State :=
  { s with
    ctl := { s.ctl with cstate := .slaveWaitingToJoin, peer := none, timer := some .joinWait }
    out := { s.out with logOut := s.out.logOut ++ [⟨.sensing, .slaveWaitingToJoin, .r185⟩] } }

theorem exec_sensing {i : Instr} {f : Frame} (hf : i.frame? = some f) (hrun : s.running)
    (hc : s.ctl.cstate = .sensing) : exec i s = (sensingTraffic f (recordFrame f s)).outcome := by
  rw [exec_of_frame i f s hf, deliver_of_running _ _ _ hrun (by simp [hc]) (by simp [hc])]
  simp [dispatchFrame, hc]

theorem sensingTraffic_eq (hc : s.ctl.cstate = .sensing) (f : Frame) : sensingTraffic f s =
    if isBroadcastSolicit f then answerSolicit f.hdr s.awaitsSolicit else .go s.awaitsSolicit := by
  rw [State.awaitsSolicit, ← hc]
  rfl

/-- R241's answer of a station without a peer. -/
theorem answerSolicit_of_canSend {p : Params} {me : StationId} {h : Header} (hp : s.params = p) (hw : s.wireId = me)
    (hpeer : s.ctl.peer = none) (hbc : h.bc = true) (hsend : s.canSend (commandOnWire p me 0x3#4 h.src false [])) :
    answerSolicit h s = .go (State.sent (commandOnWire p me 0x3#4 h.src false []) { s with
      ctl := { s.ctl with peer := some h.src, timer := some .resp } }) := by
  have hsent := send_from 0x3#4 h.src false [] { s with ctl := { s.ctl with peer := some h.src } } hp hw hsend
  rw [answerSolicit, if_pos ⟨hbc, hpeer⟩]
  exact congrArg (fun m => m.bind fun t => .go (t.arm .resp)) hsent

end

/-- Settles O15: R185 moves the block, and a broadcast solicit then meets R241's rule. -/
theorem sensingMovesOnTheFirstFrame : Obligations.SensingMovesOnTheFirstFrame := by
  intro i f s hf hrun hc r t answer
  have hrc : r.ctl.cstate = .sensing := by simpa [r] using hc
  have hexec : exec i s = (if isBroadcastSolicit f then answerSolicit f.hdr r.awaitsSolicit
      else .go r.awaitsSolicit).outcome := by
    rw [exec_sensing hf hrun hc, sensingTraffic_eq hrc]
  refine ⟨fun hother => ?_, fun hsolicit hbc hsend => ?_⟩
  · have hno : ¬ isBroadcastSolicit f = true := by
      rw [isBroadcastSolicit_iff hf]
      rintro ⟨⟨d, rfl⟩, hbc⟩
      rcases hother with hne | hbc'
      · exact hne d rfl
      · cases hbc.symm.trans hbc'
    rw [hexec, if_neg hno]
    rfl
  · have hsent : answerSolicit f.hdr r.awaitsSolicit = _ :=
      answerSolicit_of_canSend (recordFrame_params f s) (recordFrame_wireId f s) rfl hbc
        ((State.canSend_congr (congrArg Environment.writeRoom (recordFrame_env f s)) _).2 hsend)
    rw [hexec, if_pos ((isBroadcastSolicit_iff hf).2 ⟨hsolicit, hbc⟩), hsent]
    rfl

/-! ## A frame from this block's own id (R181) -/

theorem duplicate_of_own {h : Header} {s : State} (hown : s.ctl.ownId = some h.src)
    (hc : s.ctl.cstate = .master ∨ s.ctl.cstate = .slave ∨ s.ctl.cstate = .slaveWaitingForFirstToken ∨
      s.ctl.cstate = .slaveJoining) : duplicate h s = true := by
  rcases hc with hc | hc | hc | hc <;> simp [duplicate, fromStation, hown, hc]

/-- Settles O16: the duplicate check comes before the rule of the kind. -/
theorem duplicateStationEntersError : Obligations.DuplicateStationEntersError := by
  intro i f s hf hrun hown hc
  have hdup : duplicate f.hdr (recordFrame f s) = true := duplicate_of_own (by simpa using hown) (by simpa using hc)
  have hactive : s.ctl.cstate ≠ .initial ∧ s.ctl.cstate ≠ .broadcastingStationId ∧ s.ctl.cstate ≠ .error ∧
      s.ctl.cstate ≠ .sensing := by
    rcases hc with hc | hc | hc | hc <;> simp [hc]
  obtain ⟨hi, hb, he, hs⟩ := hactive
  rw [exec_of_frame i f s hf, deliver_of_running _ _ _ hrun hi hb]
  rcases dispatchFrame_cases f (kindRule f) (recordFrame f s) with
    ⟨h, -⟩ | ⟨h, -⟩ | ⟨-, -, -, h⟩ | ⟨-, -, h, -⟩
  · exact absurd (by simpa using h) he
  · exact absurd (by simpa using h) hs
  · rw [h, Flow.outcome]
  · cases hdup.symm.trans h

/-! ## A frame whose rule has a failing condition (R182, R243 to R248) -/

section
variable {s : State} {h : Header}

theorem not_forMe (ho : h.bc = true ∨ h.dest ≠ s.wireId) : ¬ forMe h s = true := by
  simp only [forMe, Bool.and_eq_true, Bool.not_eq_true', decide_eq_true_eq, not_and]
  rcases ho with hbc | hd
  · simp [hbc]
  · exact fun _ => hd

/-- A payload whose id cannot be used names none, the unassigned one or the excluded one (R101). -/
theorem stationOperand_of_not_usableId {p : Params} {excluded : Option StationId} {d : List Byte}
    (hu : ¬ usableId p excluded d) {i : StationId} (hi : stationOperand d = some i) :
    i = p.unassignedWireId ∨ excluded = some i := by
  obtain ⟨rest, hd⟩ := (stationOperand_eq_some d i).1 hi
  by_contra hne
  rw [not_or] at hne
  exact hu ⟨i, rest, hd, hne⟩

theorem getAddressRule_ignored (hx : s.ctl.cstate ≠ .master ∨ s.ctl.mphase ≠ .mSolicit ∨
    (h.bc = true ∨ h.dest ≠ s.wireId)) : getAddressRule h s = .go s := by
  refine if_neg fun ⟨hc, hm, hme⟩ => ?_
  rcases hx with hx | hx | hx
  exacts [hx hc, hx hm, not_forMe hx hme]

theorem addressOfferedRule_ignored (hx : s.ctl.cstate ≠ .slaveWaitingToJoin ∨ s.ctl.peer ≠ some h.src ∨
    (h.bc = true ∨ h.dest ≠ s.wireId)) : addressOfferedRule h s = .go s := by
  refine if_neg fun ⟨hc, hme, hsrc⟩ => ?_
  rcases hx with hx | hx | hx
  exacts [hx hc, hx ((fromStation_iff h _).1 hsrc), not_forMe hx hme]

theorem setAddressRule_ignored {d : List Byte} (hx : s.ctl.cstate ≠ .slaveJoining ∨ s.ctl.ownId ≠ none ∨
    s.ctl.peer ≠ some h.src ∨ (h.bc = true ∨ h.dest ≠ s.wireId) ∨ ¬ usableId s.params s.ctl.peer d) :
    setAddressRule h d s = .go s := by
  unfold setAddressRule
  split
  · rfl
  · next i hi =>
    refine if_neg fun ⟨hc, hid, hme, hsrc, hfree, hother⟩ => ?_
    rcases hx with hx | hx | hx | hx | hx
    exacts [hx hc, hx hid, hx ((fromStation_iff h _).1 hsrc), not_forMe hx hme,
      (stationOperand_of_not_usableId hx hi).elim hfree hother]

theorem addressSetRule_ignored (hx : s.ctl.cstate ≠ .master ∨ s.ctl.mphase ≠ .mWaitDevAck ∨
    s.ctl.pending ≠ some h.src ∨ (h.bc = true ∨ h.dest ≠ s.wireId)) : addressSetRule h s = .go s := by
  refine if_neg fun ⟨hc, hm, hme, hsrc⟩ => ?_
  rcases hx with hx | hx | hx | hx
  exacts [hx hc, hx hm, hx ((fromStation_iff h _).1 hsrc), not_forMe hx hme]

theorem setSuccessorRule_ignored {d : List Byte}
    (hx : (s.ctl.cstate ≠ .slaveJoining ∧ s.ctl.cstate ≠ .slaveWaitingForFirstToken ∧ s.ctl.cstate ≠ .slave) ∨
      s.ctl.ownId = none ∨ s.ctl.peer ≠ some h.src ∨ (h.bc = true ∨ h.dest ≠ s.wireId) ∨
      ¬ usableId s.params s.ctl.ownId d) :
    setSuccessorRule h d s = .go s := by
  unfold setSuccessorRule
  split
  · rfl
  · next i hi =>
    refine if_neg fun ⟨hc, hid, hme, hsrc, hother, hfree⟩ => ?_
    rcases hx with ⟨hj, hw, hs⟩ | hx | hx | hx | hx
    · exact hc.elim hj fun hc => hc.elim hw hs
    · exact hid hx
    · exact hx ((fromStation_iff h _).1 hsrc)
    · exact not_forMe hx hme
    · exact (stationOperand_of_not_usableId hx hi).elim hfree hother

theorem successorSetRule_ignored
    (hx : s.ctl.cstate ≠ .master ∨ (s.ctl.mphase ≠ .mWaitSuccAck ∨ s.ctl.pending ≠ some h.src) ∧
      (s.ctl.mphase ≠ .mWaitPredAck ∨ s.ctl.pendingPred ≠ some h.src) ∨ (h.bc = true ∨ h.dest ≠ s.wireId)) :
    successorSetRule h s = .go s := by
  unfold successorSetRule
  split
  · next hcond =>
    obtain ⟨hc, hme⟩ := hcond
    rcases hx with hx | ⟨hsucc, hpred⟩ | hx
    · exact absurd hc hx
    · split
      · next hm => exact if_neg fun hsrc => hsucc.elim (· hm) (· ((fromStation_iff h _).1 hsrc))
      · next hm => exact if_neg fun hsrc => hpred.elim (· hm) (· ((fromStation_iff h _).1 hsrc))
      · rfl
    · exact absurd hme (not_forMe hx)
  · rfl

end

/-- Settles O60: with a failing condition the rule of each of the six kinds does nothing. -/
theorem framesNoRuleNamesAreOnlyRecorded : Obligations.FramesNoRuleNamesAreOnlyRecorded := by
  intro h d s hrun hi hb hs hown others
  have ignored (i : Instr) (cmd : BitVec 4) (hf : i.frame? = some (.command ⟨h, cmd, d⟩)) :=
    exec_frame_ignored i _ s hf hrun hi hb hs hown
  exact ⟨fun hx => ignored _ _ rfl (getAddressRule_ignored hx),
    fun hx => ignored _ _ rfl (addressOfferedRule_ignored hx),
    fun hx => ignored _ _ rfl (setAddressRule_ignored hx),
    fun hx => ignored _ _ rfl (addressSetRule_ignored hx),
    fun hx => ignored _ _ rfl (setSuccessorRule_ignored hx),
    fun hx => ignored _ _ rfl (successorSetRule_ignored hx)⟩

end Sys2Proof.Machine
end

section
/-! What a frame of each kind does in a running block past Sensing (spec/43_frame_commands.md R240 to R253): the rule of
each kind, case by case, and the step that it gives for a frame of another station. -/

namespace Sys2Proof.Machine

open Sys2Proof

/-! ## The states whose frames reach a rule (R179) -/

/-- The states in which a frame of another station reaches the rule of its kind. -/
def ruledStates : List CState := [.slaveWaitingToJoin, .slaveJoining, .slaveWaitingForFirstToken, .slave, .master]

section
variable {s : State} {h : Header} {d : List Byte} {me : StationId}

theorem exec_of_rule {i : Instr} {f : Frame} {m : Flow} (hf : i.frame? = some f) (hrun : s.running)
    (hc : s.ctl.cstate ∈ ruledStates) (hown : s.ctl.ownId ≠ some f.hdr.src)
    (hrule : kindRule f (recordFrame f s) = m) : exec i s = m.outcome := by
  have ne_of_notMem {c : CState} (hn : c ∉ ruledStates) : s.ctl.cstate ≠ c := fun h => hn (h ▸ hc)
  rw [← hrule]
  exact exec_frame_rule i f s hf hrun (ne_of_notMem (by decide)) (ne_of_notMem (by decide))
    (ne_of_notMem (by decide)) (ne_of_notMem (by decide)) hown

/-- A register that names one station does not name another. -/
theorem ne_some_of_ne {o : Option StationId} {x y : StationId} (ho : o = some x) (hne : y ≠ x) : o ≠ some y := by
  rw [ho]
  exact fun heq => hne (Option.some.inj heq).symm

/-! ## What the rules ask of a frame (R33, R101, R175) -/

theorem State.wireId_unassigned (hnone : s.ctl.ownId = none) : s.wireId = s.params.unassignedWireId := by
  simp [State.wireId, hnone]

theorem State.ring_own (hme : s.ctl.ownId = some me) : s.ring = insertId s.ctl.known me := by
  simp [State.ring, hme]

theorem forMe_of_wireId (hw : s.wireId = me) (hbc : h.bc = false) (hdest : h.dest = me) : forMe h s = true := by
  simp [forMe, hw, hbc, hdest]

/-- A byte whose value is a station id is the one that a payload names the id by (R101). -/
theorem byte_eq_stationId {b : Byte} {n : StationId} (hb : b.toNat = n.toNat) : b = n.setWidth 8 := by
  have := n.isLt
  exact BitVec.eq_of_toNat_eq (by simp; omega)

theorem stationOperand_stationId (n : StationId) (d : List Byte) : stationOperand (n.setWidth 8 :: d) = some n :=
  (stationOperand_eq_some _ n).2 ⟨d, rfl⟩

theorem not_usableId_nil (p : Params) (excluded : Option StationId) : ¬ usableId p excluded [] := by
  rintro ⟨n, rest, hd, -⟩
  cases hd

/-- A first byte above 63, or one that names the unassigned or the excluded id, is no usable id. -/
theorem not_usableId_cons {p : Params} {b : Byte} {x : StationId}
    (hb : 63 < b.toNat ∨ b.toNat = p.unassignedWireId.toNat ∨ b.toNat = x.toNat) : ¬ usableId p (some x) (b :: d) := by
  rintro ⟨n, rest, hd, hfree, hother⟩
  obtain ⟨rfl, -⟩ := List.cons.inj hd
  have hn := n.isLt
  have hval : (n.setWidth 8).toNat = n.toNat := by simp; omega
  rw [hval] at hb
  rcases hb with hb | hb | hb
  · omega
  · exact hfree (BitVec.eq_of_toNat_eq hb)
  · exact hother (congrArg some (BitVec.eq_of_toNat_eq hb.symm))

/-- A step goes on after a `SEND` that the transport accepts (R174). -/
theorem send_bind_of_canSend {p : Params} {cmd : BitVec 4} {dest : StationId} {bc : Bool} {k : State → Flow}
    (hp : s.params = p) (hw : s.wireId = me) (hsend : s.canSend (commandOnWire p me cmd dest bc d)) :
    (send cmd dest bc d s).bind k = k (s.sent (commandOnWire p me cmd dest bc d)) := by
  rw [send_from cmd dest bc d s hp hw hsend, Flow.bind_go]

/-! ## Token (R240) -/

theorem tokenRule_slave (hc : s.ctl.cstate = .slave) (hhold : s.ctl.holdsToken = false) (hfor : forMe h s = true) :
    tokenRule h s = .go (takeToken s) := by
  simp [tokenRule, hfor, hc, hhold]

theorem tokenRule_idle (hc : s.ctl.cstate = .master) (hm : s.ctl.mphase = .mIdle) (hfor : forMe h s = true) :
    tokenRule h s = .go (takeTokenAsMaster s) := by
  simp [tokenRule, hfor, hc, hm]

theorem tokenRule_held (hx : s.ctl.cstate = .slave ∧ s.ctl.holdsToken = true ∨
    s.ctl.cstate = .master ∧ s.ctl.mphase ≠ .mIdle) (hfor : forMe h s = true) :
    tokenRule h s = .ended (enterError .duplicateToken s) := by
  rw [tokenRule, if_pos hfor]
  rcases hx with ⟨hc, hhold⟩ | ⟨hc, hm⟩
  · simp [hc, hhold]
  · -- the match on the phase reduces with `hm` at hand
    simp only [hc]

/-- The block that its first token made a Slave, before it passes the token on (R240). -/
def State.gotFirstToken (s : State) : State :=
  { s with
    ctl := { s.ctl with
      cstate := .slave, tokenCounter := s.ctl.tokenCounter + 1#32, toCount := 0#32, errRetries := 0#32 }
    waiters := released .tok s.waiters
    out := { s.out with logOut := s.out.logOut ++ [⟨.slaveWaitingForFirstToken, .slave, .r240⟩] } }

theorem tokenRule_first (hc : s.ctl.cstate = .slaveWaitingForFirstToken) (hfor : forMe h s = true) :
    tokenRule h s = passToken s.gotFirstToken := by
  rw [tokenRule, if_pos hfor, State.gotFirstToken, ← fireWaiters_eq]
  simp only [hc]
  rw [← hc]
  rfl

theorem tokenRule_ignored (hx : (h.bc = true ∨ h.dest ≠ s.wireId) ∨ s.ctl.cstate = .slaveWaitingToJoin ∨
    s.ctl.cstate = .slaveJoining ∨ s.ctl.cstate = .error) : tokenRule h s = .go s := by
  rcases hx with hother | hc
  · exact if_neg (not_forMe hother)
  · unfold tokenRule
    split
    · rcases hc with hc | hc | hc <;> simp [hc]
    · rfl

/-! ## SolicitSuccessorRequest (R241) -/

theorem solicitRule_joiner (hc : s.ctl.cstate = .slaveWaitingToJoin) : solicitRule h s = answerSolicit h s := by
  simp [solicitRule, hc]

theorem solicitRule_master (hc : s.ctl.cstate = .master) :
    solicitRule h s = .ended (enterError .secondMaster s) := by
  simp [solicitRule, hc]

theorem solicitRule_ignored (hx : s.ctl.cstate = .slaveWaitingToJoin ∧ (s.ctl.peer ≠ none ∨ h.bc = false) ∨
    s.ctl.cstate = .slaveJoining ∨ s.ctl.cstate = .slaveWaitingForFirstToken ∨ s.ctl.cstate = .slave) :
    solicitRule h s = .go s := by
  rcases hx with ⟨hc, hno⟩ | hc | hc | hc
  · rw [solicitRule_joiner hc]
    refine if_neg fun ⟨hbc, hpeer⟩ => ?_
    rcases hno with hset | hfalse
    · exact hset hpeer
    · cases hbc.symm.trans hfalse
  · simp [solicitRule, hc]
  · simp [solicitRule, hc]
  · simp [solicitRule, hc]

/-! ## GetAddressRequest and GetAddressResponse (R243, R244) -/

theorem getAddressRule_full (hfull : s.assignId = none) : getAddressRule h s = .go s := by
  unfold getAddressRule
  split
  · simp only [hfull]
  · rfl

theorem getAddressRule_offers {n : StationId} (hc : s.ctl.cstate = .master) (hm : s.ctl.mphase = .mSolicit)
    (hme : s.ctl.ownId = some me) (hfor : forMe h s = true) (hn : s.assignId = some n)
    (hsend : s.canSend (commandOnWire s.params me 0x4#4 s.params.unassignedWireId false [] ++
      commandOnWire s.params me 0x5#4 s.params.unassignedWireId false (stationPayload n))) :
    getAddressRule h s = .go (State.sent (commandOnWire s.params me 0x4#4 s.params.unassignedWireId false [] ++
      commandOnWire s.params me 0x5#4 s.params.unassignedWireId false (stationPayload n)) { s with
        ctl := { s.ctl with pending := some n, mphase := .mWaitDevAck, toCount := 0#32, timer := some .resp } }) := by
  obtain ⟨hoffer, haddress⟩ := (State.canSend_append _ _ _).1 hsend
  have hw := s.wireId_own me hme
  rw [getAddressRule, if_pos ⟨hc, hm, hfor⟩, hn, ← State.sent_sent]
  refine (send_bind_of_canSend (s := { s with ctl := { s.ctl with pending := some n } }) rfl hw hoffer).trans ?_
  exact send_bind_of_canSend rfl hw haddress

theorem addressOfferedRule_accepts (hc : s.ctl.cstate = .slaveWaitingToJoin) (hfor : forMe h s = true)
    (hpeer : s.ctl.peer = some h.src) : addressOfferedRule h s = .go { s with
      ctl := { s.ctl with cstate := .slaveJoining, toCount := 0#32, timer := some .resp }
      out := { s.out with logOut := s.out.logOut ++ [⟨.slaveWaitingToJoin, .slaveJoining, .r244⟩] } } := by
  rw [addressOfferedRule, if_pos ⟨hc, hfor, (fromStation_iff h _).2 hpeer⟩, ← hc]
  rfl

/-! ## SetDeviceAddressRequest and SetDeviceAddressResponse (R245, R246) -/

theorem setAddressRule_takes {n : StationId} (hc : s.ctl.cstate = .slaveJoining) (hnone : s.ctl.ownId = none)
    (hfor : forMe h s = true) (hpeer : s.ctl.peer = some h.src) (hop : stationOperand d = some n)
    (hfree : n ≠ s.params.unassignedWireId) (hne : n ≠ h.src)
    (hsend : s.canSend (commandOnWire s.params n 0x6#4 h.src false (stationPayload n))) :
    setAddressRule h d s = .go (State.sent (commandOnWire s.params n 0x6#4 h.src false (stationPayload n)) { s with
      ctl := { s.ctl with ownId := some n, toCount := 0#32, timer := some .resp } }) := by
  simp only [setAddressRule, hop]
  rw [if_pos ⟨hc, hnone, hfor, (fromStation_iff h _).2 hpeer, hfree, ne_some_of_ne hpeer hne⟩]
  exact send_bind_of_canSend rfl rfl hsend

theorem addressSetRule_orders {succ : StationId} (hc : s.ctl.cstate = .master) (hm : s.ctl.mphase = .mWaitDevAck)
    (hme : s.ctl.ownId = some me) (hfor : forMe h s = true) (hpend : s.ctl.pending = some h.src)
    (hsucc : ringSucc h.src s.ring = some succ)
    (hsend : s.canSend (commandOnWire s.params me 0x7#4 h.src false (stationPayload succ))) :
    addressSetRule h s = .go (State.sent (commandOnWire s.params me 0x7#4 h.src false (stationPayload succ)) { s with
      ctl := { s.ctl with mphase := .mWaitSuccAck, toCount := 0#32, timer := some .resp } }) := by
  rw [addressSetRule, if_pos ⟨hc, hm, hfor, (fromStation_iff h _).2 hpend⟩, hsucc]
  exact send_bind_of_canSend rfl (s.wireId_own me hme) hsend

/-! ## SetSuccessorAddressRequest (R247) -/

/-- The block with a new successor (R247). -/
def State.repointed (n : StationId) (s : State) : State :=
  { s with ctl := { s.ctl with successor := some n, toCount := 0#32 } }

/-- A joiner has its successor, and waits for its first token (R247). -/
def State.awaitsFirstToken (s : State) : State :=
  { s with
    ctl := { s.ctl with cstate := .slaveWaitingForFirstToken, timer := some .token }
    out := { s.out with logOut := s.out.logOut ++ [⟨.slaveJoining, .slaveWaitingForFirstToken, .r247⟩] } }

theorem setSuccessorRule_takes {n : StationId}
    (hc : s.ctl.cstate = .slaveJoining ∨ s.ctl.cstate = .slaveWaitingForFirstToken ∨ s.ctl.cstate = .slave)
    (hme : s.ctl.ownId = some me) (hfor : forMe h s = true) (hpeer : s.ctl.peer = some h.src)
    (hop : stationOperand d = some n) (hne : n ≠ me) (hfree : n ≠ s.params.unassignedWireId)
    (hsend : s.canSend (commandOnWire s.params me 0x8#4 h.src false (stationPayload n))) :
    setSuccessorRule h d s = .go (State.sent (commandOnWire s.params me 0x8#4 h.src false (stationPayload n))
      (if s.ctl.cstate = .slaveJoining then (s.repointed n).awaitsFirstToken else s.repointed n)) := by
  have hid : s.ctl.ownId ≠ none := by simp [hme]
  simp only [setSuccessorRule, hop]
  rw [if_pos ⟨hc, hid, hfor, (fromStation_iff h _).2 hpeer, ne_some_of_ne hme hne, hfree⟩]
  refine (send_bind_of_canSend (s := { s with ctl := { s.ctl with successor := some n } }) rfl
    (s.wireId_own me hme) hsend).trans ?_
  by_cases hj : s.ctl.cstate = .slaveJoining
  · rw [if_pos hj]
    refine (if_pos hj).trans ?_
    rw [State.awaitsFirstToken, ← hj]
    rfl
  · rw [if_neg hj]
    exact if_neg hj

/-! ## SetSuccessorAddressResponse (R248) -/

/-- In MWaitSuccAck the ring closes when the station's predecessor is the master itself. -/
theorem successorSetRule_closes (hc : s.ctl.cstate = .master) (hm : s.ctl.mphase = .mWaitSuccAck)
    (hme : s.ctl.ownId = some me) (hfor : forMe h s = true) (hpend : s.ctl.pending = some h.src)
    (hpred : ringPred h.src s.ring = some me) : successorSetRule h s = passToken { s with
      ctl := { s.ctl with
        toCount := 0#32, successor := some h.src, known := insertId s.ctl.known h.src, pending := none } } := by
  rw [successorSetRule, if_pos ⟨hc, hfor⟩, hm]
  simp only
  rw [if_pos ((fromStation_iff h _).2 hpend), hpred]
  exact if_pos hme

/-- Otherwise the predecessor is told of its new successor. -/
theorem successorSetRule_repoints {pred : StationId} (hc : s.ctl.cstate = .master) (hm : s.ctl.mphase = .mWaitSuccAck)
    (hme : s.ctl.ownId = some me) (hfor : forMe h s = true) (hpend : s.ctl.pending = some h.src)
    (hpred : ringPred h.src s.ring = some pred) (hne : pred ≠ me)
    (hsend : s.canSend (commandOnWire s.params me 0x7#4 pred false (stationPayload h.src))) :
    successorSetRule h s = .go (State.sent (commandOnWire s.params me 0x7#4 pred false (stationPayload h.src)) { s with
      ctl := { s.ctl with
        toCount := 0#32, pendingPred := some pred, mphase := .mWaitPredAck, timer := some .resp } }) := by
  rw [successorSetRule, if_pos ⟨hc, hfor⟩, hm]
  simp only
  rw [if_pos ((fromStation_iff h _).2 hpend), hpred]
  refine (if_neg (ne_some_of_ne hme hne)).trans ?_
  exact send_bind_of_canSend rfl (s.wireId_own me hme) hsend

/-- In MWaitPredAck the predecessor's answer admits the pending station. -/
theorem successorSetRule_admits {new : StationId} (hc : s.ctl.cstate = .master) (hm : s.ctl.mphase = .mWaitPredAck)
    (hfor : forMe h s = true) (hpred : s.ctl.pendingPred = some h.src) (hpend : s.ctl.pending = some new) :
    successorSetRule h s = passToken { s with
      ctl := { s.ctl with
        known := insertId s.ctl.known new, pending := none, pendingPred := none, toCount := 0#32 } } := by
  rw [successorSetRule, if_pos ⟨hc, hfor⟩, hm]
  simp only
  rw [if_pos ((fromStation_iff h _).2 hpred), hpend]

end

/-! ## The frame kinds -/

/-- Settles O18: the rule of each of the nine kinds does nothing. -/
theorem dataAndReservedKindsAreOnlyRecorded : Obligations.DataAndReservedKindsAreOnlyRecorded := by
  intro h d s hrun hi hb hs hown
  have ignored (i : Instr) (cmd : BitVec 4) (hf : i.frame? = some (.command ⟨h, cmd, d⟩)) :=
    exec_frame_ignored i _ s hf hrun hi hb hs hown
  simp only [List.forall_mem_cons, List.not_mem_nil, false_imp_iff, implies_true, and_true]
  exact ⟨ignored _ _ rfl rfl, ignored _ _ rfl rfl, ignored _ _ rfl rfl, ignored _ _ rfl rfl, ignored _ _ rfl rfl,
    ignored _ _ rfl rfl, ignored _ _ rfl rfl, ignored _ _ rfl rfl, ignored _ _ rfl rfl⟩

/-- Settles O19: R240 in a slave and in a master, with and without the token. -/
theorem tokenIsTakenOrIsADuplicate : Obligations.TokenIsTakenOrIsADuplicate := by
  intro h s me hrun hme hbc hdest hsrc r t
  have hfor : forMe h r = true := forMe_of_wireId (r.wireId_own me hme) hbc hdest
  have hexec {m : Flow} (hc : s.ctl.cstate ∈ ruledStates) (hrule : tokenRule h r = m) :
      exec (.token h) s = m.outcome := exec_of_rule rfl hrun hc (ne_some_of_ne hme hsrc) hrule
  simp only [t, ← fireWaiters_eq]
  refine ⟨fun hc hhold => ?_, fun hc hm => ?_, fun hx => ?_⟩
  · exact hexec (by simp [ruledStates, hc]) (tokenRule_slave hc hhold hfor)
  · exact hexec (by simp [ruledStates, hc]) (tokenRule_idle hc hm hfor)
  · refine hexec ?_ (tokenRule_held hx hfor)
    rcases hx with ⟨hc, -⟩ | ⟨hc, -⟩ <;> simp [ruledStates, hc]

/-- Settles O20: R240 makes the block a Slave, and R188 passes the token on. -/
theorem firstTokenIsPassedOnUndrained : Obligations.FirstTokenIsPassedOnUndrained := by
  intro h s me succ hrun hc hme hsucc hne hbc hdest hsrc hsend r t
  have hfor : forMe h r = true := forMe_of_wireId (r.wireId_own me hme) hbc hdest
  have hexec : exec (.token h) s = (passToken r.gotFirstToken).outcome :=
    exec_of_rule rfl hrun (by simp [ruledStates, hc]) (ne_some_of_ne hme hsrc) (tokenRule_first hc hfor)
  exact hexec.trans (passToken_slave_outcome rfl hme hsucc hne hsend)

/-- Settles O21: every case that R240 does not act on. -/
theorem tokenForOthersIsIgnored : Obligations.TokenForOthersIsIgnored := by
  intro h s hrun hi hb hs hown hx
  exact exec_frame_ignored _ _ s rfl hrun hi hb hs hown (tokenRule_ignored (or_assoc.2 hx))

/-- Settles O22: R241 in a joiner, in a master and in the other members. -/
theorem solicitIsAnsweredByAJoiner : Obligations.SolicitIsAnsweredByAJoiner := by
  intro h d s hrun hown r answer
  have hexec {m : Flow} (hc : s.ctl.cstate ∈ ruledStates) (hrule : solicitRule h r = m) :
      exec (.solicitSuccessorRequest h d) s = m.outcome := exec_of_rule rfl hrun hc hown hrule
  refine ⟨fun hc hpeer hbc hsend => ?_, fun hc => ?_, fun hx => ?_⟩
  · have hsolicit : solicitRule h r = answerSolicit h r := solicitRule_joiner hc
    have hanswer : answerSolicit h r = _ := answerSolicit_of_canSend rfl rfl hpeer hbc hsend
    exact hexec (by simp [ruledStates, hc]) (hsolicit.trans hanswer)
  · exact hexec (by simp [ruledStates, hc]) (solicitRule_master hc)
  · refine hexec ?_ (solicitRule_ignored hx)
    rcases hx with ⟨hc, -⟩ | hc | hc | hc <;> simp [ruledStates, hc]

/-- Settles O23: R243 with and without a free id. -/
theorem masterOffersAnAddress : Obligations.MasterOffersAnAddress := by
  intro h d s me hrun hc hm hme hbc hdest hsrc r nobody
  have hfor : forMe h r = true := forMe_of_wireId (r.wireId_own me hme) hbc hdest
  have hexec {m : Flow} (hrule : getAddressRule h r = m) : exec (.getAddressRequest h d) s = m.outcome :=
    exec_of_rule rfl hrun (by simp [ruledStates, hc]) (ne_some_of_ne hme hsrc) hrule
  refine ⟨fun hfull => ?_, fun n hn => ?_⟩
  · exact hexec (getAddressRule_full hfull)
  · intro offer hsend
    exact hexec (getAddressRule_offers hc hm hme hfor hn hsend)

/-- Settles O24: R244, and its failing conditions. -/
theorem joinerAcceptsItsMastersOffer : Obligations.JoinerAcceptsItsMastersOffer := by
  intro h d s hrun hc hnone r
  have hw : r.wireId = s.params.unassignedWireId := State.wireId_unassigned hnone
  have hexec {m : Flow} (hrule : addressOfferedRule h r = m) : exec (.getAddressResponse h d) s = m.outcome :=
    exec_of_rule rfl hrun (by simp [ruledStates, hc]) (by simp [hnone]) hrule
  refine ⟨fun hpeer hbc hdest => ?_, fun hx => ?_⟩
  · exact hexec (addressOfferedRule_accepts hc (forMe_of_wireId hw hbc hdest) hpeer)
  · exact hexec (addressOfferedRule_ignored (.inr (hw ▸ hx)))

/-- Settles O25: R245 with a usable id, and with a payload that names none. -/
theorem joinerTakesItsAddress : Obligations.JoinerTakesItsAddress := by
  intro h d b s hrun hc hnone hpeer hbc hdest r
  have hexec {e : List Byte} {m : Flow} (hrule : setAddressRule h e (recordFrame (.command ⟨h, 0x5#4, e⟩) s) = m) :
      exec (.setDeviceAddressRequest h e) s = m.outcome :=
    exec_of_rule rfl hrun (by simp [ruledStates, hc]) (by simp [hnone]) hrule
  have ignored {e : List Byte} (hu : ¬ usableId s.params (some h.src) e) :
      exec (.setDeviceAddressRequest h e) s = .next (recordFrame (.command ⟨h, 0x5#4, e⟩) s) := by
    rw [← hpeer] at hu
    exact hexec (setAddressRule_ignored (.inr (.inr (.inr (.inr hu)))))
  refine ⟨fun n hb hfree hne => ?_, fun hb => ignored (not_usableId_cons hb), ignored (not_usableId_nil _ _)⟩
  obtain rfl := byte_eq_stationId hb
  have hfor : forMe h r = true := forMe_of_wireId (State.wireId_unassigned hnone) hbc hdest
  have hop := stationOperand_stationId n d
  exact fun hsend => hexec (setAddressRule_takes hc hnone hfor hpeer hop hfree hne hsend)

/-- Settles O26: R246 with the ring of a master that has an id, and its failing conditions. -/
theorem masterSetsTheNewStationsSuccessor : Obligations.MasterSetsTheNewStationsSuccessor := by
  intro h d s me succ hrun hc hm hme hsrc r order
  have hw : r.wireId = me := r.wireId_own me hme
  have hring : r.ring = insertId s.ctl.known me := State.ring_own hme
  have hexec {m : Flow} (hrule : addressSetRule h r = m) : exec (.setDeviceAddressResponse h d) s = m.outcome :=
    exec_of_rule rfl hrun (by simp [ruledStates, hc]) (ne_some_of_ne hme hsrc) hrule
  refine ⟨fun hpend hbc hdest hsucc hsend => ?_, fun hx => ?_⟩
  · have hfor : forMe h r = true := forMe_of_wireId hw hbc hdest
    exact hexec (addressSetRule_orders hc hm hme hfor hpend (hring ▸ hsucc) hsend)
  · exact hexec (addressSetRule_ignored (.inr (.inr (hw ▸ hx))))

/-- Settles O27: R247 with a usable id, and with a payload that names none. -/
theorem stationTakesItsSuccessor : Obligations.StationTakesItsSuccessor := by
  intro h d b s me hrun hc hme hsrc hpeer hbc hdest r ack
  have hruled : s.ctl.cstate ∈ ruledStates := by rcases hc with hc | hc | hc <;> simp [ruledStates, hc]
  have hexec {e : List Byte} {m : Flow} (hrule : setSuccessorRule h e (recordFrame (.command ⟨h, 0x7#4, e⟩) s) = m) :
      exec (.setSuccessorAddressRequest h e) s = m.outcome :=
    exec_of_rule rfl hrun hruled (ne_some_of_ne hme hsrc) hrule
  have ignored {e : List Byte} (hu : ¬ usableId s.params (some me) e) :
      exec (.setSuccessorAddressRequest h e) s = .next (recordFrame (.command ⟨h, 0x7#4, e⟩) s) := by
    rw [← hme] at hu
    exact hexec (setSuccessorRule_ignored (.inr (.inr (.inr (.inr hu)))))
  refine ⟨fun n hb hne hfree hsend => ?_, fun hb => ignored (not_usableId_cons (hb.imp_right Or.symm)),
    ignored (not_usableId_nil _ _)⟩
  obtain rfl := byte_eq_stationId hb
  have hfor : forMe h r = true := forMe_of_wireId (r.wireId_own me hme) hbc hdest
  have hop := stationOperand_stationId n d
  exact hexec (setSuccessorRule_takes hc hme hfor hpeer hop hne hfree hsend)

/-- Settles O28: R248 in MWaitSuccAck, on whether the ring predecessor is the master. -/
theorem masterClosesTheRingOrRepointsThePredecessor : Obligations.MasterClosesTheRingOrRepointsThePredecessor := by
  intro h d s me pred hrun hc hm hme hsrc hpend hbc hdest hpred r
  have hfor : forMe h r = true := forMe_of_wireId (r.wireId_own me hme) hbc hdest
  have hring : r.ring = insertId s.ctl.known me := State.ring_own hme
  rw [← hring] at hpred
  have hexec {m : Flow} (hrule : successorSetRule h r = m) :
      exec (.setSuccessorAddressResponse h d) s = m.outcome :=
    exec_of_rule rfl hrun (by simp [ruledStates, hc]) (ne_some_of_ne hme hsrc) hrule
  refine ⟨fun heq hsend => ?_, fun hne hsend => ?_⟩
  · subst heq
    refine (hexec (successorSetRule_closes hc hm hme hfor hpend hpred)).trans ?_
    exact passToken_master_outcome hc hme rfl hsrc hsend
  · exact hexec (successorSetRule_repoints hc hm hme hfor hpend hpred hne hsend)

/-- Settles O29: R248 in MWaitPredAck, then R188's pass. -/
theorem masterAdmitsTheStation : Obligations.MasterAdmitsTheStation := by
  intro h d s me succ new hrun hc hm hme hsrc hpred hpend hbc hdest hsucc hne hsend r
  have hfor : forMe h r = true := forMe_of_wireId (r.wireId_own me hme) hbc hdest
  refine (exec_of_rule (i := .setSuccessorAddressResponse h d) rfl hrun (by simp [ruledStates, hc])
    (ne_some_of_ne hme hsrc) (successorSetRule_admits hc hm hfor hpred hpend)).trans ?_
  exact passToken_master_outcome hc hme hsucc hne hsend

end Sys2Proof.Machine
end

section
/-! The host port (spec/44_host_interface.md R260 to R269, R274 to R276): what each operation does, case by case, and
the steps of a call and of a wait's return. -/

namespace Sys2Proof.Machine

open Sys2Proof

section
variable {s : State} {rest : List Event}

/-! ## A host call (R275, R276) -/

theorem step_hostCall {r : HostRequest} (hs : s.env.schedule = .hostCall r :: rest) :
    step s = hostCallEvent r (s.withSchedule rest) :=
  step_event s _ rest hs

theorem decodeHost_of_le {r : HostRequest} (hr : 15 ≤ r.hop.toNat) : decodeHost r = .error (.badOp r.hop) := by
  unfold decodeHost
  split
  case h_16 => rfl
  all_goals omega

theorem hostCallEvent_of_ok {r : HostRequest} {i : Instr} (hi : decodeHost r = .ok i) :
    hostCallEvent r s = exec i s := by
  simp only [hostCallEvent, hi]

theorem hostCallEvent_of_error {r : HostRequest} {e : DecodeRefusal} (he : decodeHost r = .error e) :
    hostCallEvent r s = .next (s.reply r.hop .badOp .none) := by
  simp only [hostCallEvent, he, badOp]

/-! ## `open` (R260) -/

theorem exec_openDevice_fatal (d : List Byte) (hf : s.fatal = true) :
    exec (.openDevice d) s = .next (s.reply 0x00#8 .fatal .none) := by
  simp [exec, execOpenDevice, hf]

theorem exec_openDevice_badState (d : List Byte) (hf : s.fatal = false) (ho : s.opened = true) :
    exec (.openDevice d) s = .next (s.reply 0x00#8 .badState .none) := by
  simp [exec, execOpenDevice, hf, ho]

/-- A closed block in operation answers what the transport answers (log entry 9). -/
theorem exec_openDevice_closed (d : List Byte) (hf : s.fatal = false) (ho : s.opened = false) :
    exec (.openDevice d) s = .next (if s.env.openOk then { s with opened := true }.reply 0x00#8 .ok .none
      else s.reply 0x00#8 .openFailed .none) := by
  cases ht : s.env.openOk <;> simp [exec, execOpenDevice, hf, ho, ht]

/-! ## Operations that read `CSTATE` (R171, R261, R265, R266, R274) -/

theorem readingCState_of_ne {k : State → Result} (hb : s.ctl.cstate ≠ .broadcastingStationId) :
    readingCState k s = k s := by
  unfold readingCState
  split
  · next hc => exact absurd hc hb
  · rfl

theorem exec_start_fatal (hf : s.fatal = true) : exec .start s = .next (s.reply 0x01#8 .fatal .none) := by
  simp [exec, execStart, hf]

theorem exec_start_notOpen (hf : s.fatal = false) (ho : s.opened = false) :
    exec .start s = .next (s.reply 0x01#8 .notOpen .none) := by
  simp [exec, execStart, hf, ho]

theorem exec_start_badState (hf : s.fatal = false) (ho : s.opened = true) (hi : s.ctl.cstate ≠ .initial)
    (hb : s.ctl.cstate ≠ .broadcastingStationId) : exec .start s = .next (s.reply 0x01#8 .badState .none) := by
  simp [exec, execStart, hf, ho, readingCState_of_ne hb, hi]

theorem exec_start_initial (hf : s.fatal = false) (ho : s.opened = true) (hc : s.ctl.cstate = .initial) :
    exec .start s = .next ((enterSensing .start s).reply 0x01#8 .ok .none) := by
  have hb : s.ctl.cstate ≠ .broadcastingStationId := by simp [hc]
  simp [exec, execStart, hf, ho, readingCState_of_ne hb, hc]

theorem exec_getState (hb : s.ctl.cstate ≠ .broadcastingStationId) :
    exec .getState s = .next (s.reply 0x04#8 .ok (.stateCode s.ctl.cstate.code)) := by
  simp only [exec, execGetState, readingCState_of_ne hb]

theorem exec_isReady (hb : s.ctl.cstate ≠ .broadcastingStationId) :
    exec .isReady s = .next (s.reply 0x05#8 .ok (.ready s.ready)) := by
  simp only [exec, execIsReady, readingCState_of_ne hb]

theorem exec_readStatus (hb : s.ctl.cstate ≠ .broadcastingStationId) :
    exec .readStatus s = .next (s.reply 0x0D#8 .ok (.statusRecord s.statusRecord)) := by
  simp only [exec, execReadStatus, readingCState_of_ne hb]

/-- `isReady` as R45 words it. -/
theorem State.ready_eq_decide (s : State) : s.ready =
    decide ((s.ctl.cstate = .master ∨ s.ctl.cstate = .slave) ∧ s.ctl.persistFail = false ∧ s.fatal = false) := by
  simp [State.ready, Bool.and_assoc]

/-! ## The transmit queue (R263, R264) -/

theorem enqueue_fatal (hop : Byte) (f : HostFrame) (hf : s.fatal = true) :
    enqueue hop f s = s.reply hop .fatal .none := by
  simp [enqueue, hf]

theorem enqueue_invalid (hop : Byte) {f : HostFrame} {e : EncodeField} (hf : s.fatal = false)
    (he : hostFrameError f = some e) : enqueue hop f s = s.reply hop (.encodeError e) .none := by
  simp [enqueue, hf, he]

theorem enqueue_full (hop : Byte) {f : HostFrame} (hf : s.fatal = false) (hv : hostFrameError f = none)
    (hd : s.params.queueDepth = some s.ctl.txq.length) : enqueue hop f s = s.reply hop .queueFull .none := by
  simp [enqueue, hf, hv, hd]

theorem enqueue_valid (hop : Byte) {f : HostFrame} (hf : s.fatal = false) (hv : hostFrameError f = none)
    (hd : s.params.queueDepth ≠ some s.ctl.txq.length) :
    enqueue hop f s =
      { s with ctl := { s.ctl with txq := s.ctl.txq ++ [frameOfHost f] } }.reply hop .ok .none := by
  simp [enqueue, hf, hv, hd]

/-- The queued frame has the numbers the host gave (R102, R263). -/
theorem frameOfHost_toNat {f : HostFrame} (hv : hostFrameError f = none) :
    (frameOfHost f).hdr.dest.toNat = f.dest ∧ (frameOfHost f).hdr.bc.toNat = f.bc ∧
      (frameOfHost f).hdr.src.toNat = f.src ∧ (frameOfHost f).hdr.ctr.toNat = f.ctr ∧
      (frameOfHost f).cmd.toNat = f.cmd ∧ (frameOfHost f).payload.map BitVec.toNat = f.payload := by
  obtain ⟨hdest, hsrc, hctr, hbc, -, hbody⟩ := (hostFrameError_eq_none_iff f).1 hv
  obtain ⟨hcmd, -, hbytes⟩ := (bodyError_eq_none_iff _ _).1 hbody
  obtain ⟨hdest', hbc', hsrc', hctr'⟩ := headerOfHost_toNat hdest hsrc hctr hbc
  exact ⟨hdest', hbc', hsrc', hctr', toNat_ofNat_of_le hcmd (by decide), map_toNat_map_ofNat hbytes⟩

/-! ## The waits (R267, R269) -/

theorem callWait_fatal (hop : Byte) (k : WaiterKind) (hf : s.fatal = true) :
    callWait hop k s = s.reply hop .fatal .none := by
  simp [callWait, hf]

theorem callWait_running (hop : Byte) (k : WaiterKind) (hf : s.fatal = false) :
    callWait hop k s = { s with waiters := s.waiters ++ [⟨k, false⟩] } := by
  simp [callWait, hf]

theorem returnEnabled_ok_iff (w : Waiter) (s : State) :
    s.returnEnabled w .ok = true ↔ w ∈ s.waiters ∧ w.fired = true := by
  simp [State.returnEnabled]

theorem returnEnabled_fatal_iff (w : Waiter) (s : State) :
    s.returnEnabled w .fatal = true ↔ w ∈ s.waiters ∧ s.fatal = true := by
  simp [State.returnEnabled]

theorem step_waitReturn {w : Waiter} {ret : WaitReturn} (hs : s.env.schedule = .waitReturn w ret :: rest)
    (hen : (s.withSchedule rest).returnEnabled w ret = true) :
    step s = .next (returnWait w ret (s.withSchedule rest)) :=
  (step_event s _ rest hs).trans (if_pos hen)

end

/-! ## The statements -/

/-- Settles O35: both operations are `enqueue` under their own code, and a valid frame's bits are the host's numbers. -/
theorem enqueueAppendsAValidFrame : Obligations.EnqueueAppendsAValidFrame := by
  intro x hx f s
  have hexec : exec (x.2 f) s = .next (enqueue x.1 f s) := by
    simp only [List.mem_cons, List.not_mem_nil, or_false] at hx
    obtain rfl | rfl := hx <;> rfl
  rw [hexec]
  refine ⟨fun hf => ?_, fun e hf he => ?_, fun hf hv hd => ?_,
    fun hf hv hd => ⟨frameOfHost f, ?_, frameOfHost_toNat hv⟩⟩
  · rw [enqueue_fatal _ _ hf]
  · rw [enqueue_invalid _ hf he]
  · rw [enqueue_full _ hf hv hd]
  · rw [enqueue_valid _ hf hv hd]
    rfl

/-- Settles O8: the step takes the call from the schedule, and `decodeHost` says which clause it is. -/
theorem stepRunsTheHostOperation : Obligations.StepRunsTheHostOperation :=
  fun _ _ _ hs => ⟨fun _ hi => (step_hostCall hs).trans (hostCallEvent_of_ok hi),
    fun hr => (step_hostCall hs).trans (hostCallEvent_of_error (decodeHost_of_le hr))⟩

/-- Settles O32: a stopped block, an open one, and the transport's two answers. -/
theorem openAnswers : Obligations.OpenAnswers := by
  intro d s
  refine ⟨exec_openDevice_fatal d, exec_openDevice_badState d, fun hf ho ht => ?_, fun hf ho ht => ?_⟩ <;>
    rw [exec_openDevice_closed d hf ho, ht] <;> rfl

/-- Settles O33: past the two refusals only `CSTATE` decides, and Initial leads to `enterSensing`. -/
theorem startEntersSensing : Obligations.StartEntersSensing := by
  intro s
  refine ⟨exec_start_fatal, exec_start_notOpen, exec_start_badState, fun hf ho hc => ?_⟩
  rw [exec_start_initial hf ho hc, ← hc]
  rfl

/-- Settles O36: no read looks at `FATAL`, and each finds a `CSTATE` it may read (R171). -/
theorem readsAnswerAndChangeNothing : Obligations.ReadsAnswerAndChangeNothing := by
  intro s hb
  refine ⟨(exec_getState hb).trans ?_, ?_, rfl, exec_readStatus hb⟩
  · cases s.ctl.cstate <;> rfl
  · rw [exec_isReady hb, s.ready_eq_decide]

/-- Settles O37: both waits are `callWait` under their own code, and both returns are `returnWait`. -/
theorem waitsAddAndReturnTheirWaiter : Obligations.WaitsAddAndReturnTheirWaiter := by
  intro x hx s rest fired
  have hcall : exec x.2.1 s = .next (callWait x.1 x.2.2 s) ∧ x.2.2.hop = x.1 := by
    simp only [List.mem_cons, List.not_mem_nil, or_false] at hx
    obtain rfl | rfl := hx <;> exact ⟨rfl, rfl⟩
  obtain ⟨hexec, hhop⟩ := hcall
  rw [hexec, ← hhop]
  refine ⟨fun hf => ?_, fun hf => ?_, fun hs hw => ?_, fun hs hw hf => ?_⟩
  · rw [callWait_fatal _ _ hf]
  · rw [callWait_running _ _ hf]
  · exact step_waitReturn hs ((returnEnabled_ok_iff _ _).2 ⟨hw, rfl⟩)
  · exact step_waitReturn hs ((returnEnabled_fatal_iff _ _).2 ⟨hw, hf⟩)

end Sys2Proof.Machine
end

section
/-! The Error state (spec/60_exceptions.md R291 to R303): what its entry and its exit write, what a frame does in
it, which steps enter it and which never leave it; and the transport's failures (R293). -/

namespace Sys2Proof.Machine

open Sys2Proof

/-! ## What the entry into Error writes (R291, R296) -/

/-- Settles O44: the role that `clearRole` clears, the registers that the entry sets, and the rest as it stands. -/
theorem errorEntryWritesItsRegisters : Obligations.ErrorEntryWritesItsRegisters := by
  intro cause s
  cases cause <;> rfl

section
variable {s t u : State} {rest : List Event}

/-! ## A transport that fails (R152, R173, R293) -/

theorem whileActive_of_active {k : State → Result} (ha : s.activity = .active) : whileActive k s = k s := by
  simp only [whileActive, ha]

theorem step_rxFail (hs : s.env.schedule = .rxFail :: rest) (hrun : s.running) (hi : s.ctl.cstate ≠ .initial)
    (hb : s.ctl.cstate ≠ .broadcastingStationId) :
    step s = .next (transportError .read (s.withSchedule rest)) :=
  (step_event s _ rest hs).trans
    (whileActive_of_active (s := s.withSchedule rest) (k := fun s => .next (transportError .read s))
      (activity_of_running _ hrun hi hb))

/-- A write that the transport does not accept whole is cut off at the transport's room. -/
theorem transmit_of_room_lt {layout : List Byte} {room : Nat} (hroom : s.env.writeRoom = some room)
    (hlt : room < (wireImage s.params layout).length) :
    transmit layout s = .ended (s.cutOff room (wireImage s.params layout)) := by
  rcases transmit_cases layout s with ⟨hsend, -⟩ | ⟨n, hn, -, h⟩
  · exact absurd (hsend room hroom) (Nat.not_le_of_lt hlt)
  · cases hroom.symm.trans hn
    exact h

/-- Settles O46: the read by its event, the write by the transmission's inversion. -/
theorem transportFailureStopsTheBlock : Obligations.TransportFailureStopsTheBlock :=
  fun _ _ => ⟨fun hs hrun hi hb => step_rxFail hs hrun hi hb, fun _ _ hroom hlt => transmit_of_room_lt hroom hlt⟩

/-! ## A block in Error (R303) -/

theorem dispatchFrame_of_error {f : Frame} {k : State → Flow} (hc : s.ctl.cstate = .error) :
    dispatchFrame f k s = .go s := by
  simp only [dispatchFrame, hc]

theorem timeoutRule_of_error (k : TimerKind) (hc : s.ctl.cstate = .error) : timeoutRule k s = .go s := by
  simp [timeoutRule, hc]

theorem not_tenureEnabled_of_error (hc : s.ctl.cstate = .error) : ¬ s.tenureEnabled = true := by
  simp [tenureEnabled_iff, hc]

theorem activity_of_unreachable (hrun : s.running) (hc : s.ctl.cstate = .broadcastingStationId) :
    s.activity = .unreachable := by
  obtain ⟨hf, ho⟩ := hrun
  simp [State.activity, hf, ho, hc]

theorem activity_of_inactive (h : s.fatal = true ∨ s.opened = false ∨ s.ctl.cstate = .initial) :
    s.activity = .inactive := by
  rcases h with h | h | h <;> simp [State.activity, h]

/-- Settles O17: R179 stops after recording, and outside an active block the delivery itself says what happens. -/
theorem framesInErrorAndInInactiveBlocks : Obligations.FramesInErrorAndInInactiveBlocks := by
  intro i f s hf
  rw [exec_of_frame i f s hf]
  refine ⟨fun hrun hc => ?_, fun hoff => ?_, fun hrun hc => ?_⟩
  · rw [deliver_of_running _ _ _ hrun (by simp [hc]) (by simp [hc]), dispatchFrame_of_error (by simp [hc])]
    rfl
  · simp only [deliver, activity_of_inactive hoff]
  · simp only [deliver, activity_of_unreachable hrun hc]

/-! ## The exit from Error (R297) -/

/-- A controller step that is enabled runs its rule, in a running block and a state that may be found (R170). -/
theorem controllerStep_enabled {enabled : State → Bool} (k : State → Flow) (hf : s.fatal = false)
    (hb : s.ctl.cstate ≠ .broadcastingStationId) (hen : enabled s = true) :
    controllerStep enabled k s = (k s).outcome := by
  simp [controllerStep, hf, hb, hen]

theorem step_errorExit (hs : s.env.schedule = .errorExit :: rest) :
    step s = controllerStep State.errorExitEnabled (fun t => .go (errorExit t)) (s.withSchedule rest) :=
  step_event s _ rest hs

/-- Settles O45: the exit is enabled by a clear `PERSIST_FAIL`, and lapses otherwise. -/
theorem errorExitReentersSensing : Obligations.ErrorExitReentersSensing := by
  intro s rest hs hf hc
  have hb : (s.withSchedule rest).ctl.cstate ≠ .broadcastingStationId := by simp [State.withSchedule, hc]
  rw [step_errorExit hs]
  refine ⟨fun hp => ?_, fun hp => controllerStep_disabled _ hb fun hen => ?_⟩
  · rw [controllerStep_enabled (s := s.withSchedule rest) _ hf hb ((errorExitEnabled_iff _).2 ⟨hf, hc, hp⟩), ← hc]
    rfl
  · obtain ⟨-, -, hclear⟩ := (errorExitEnabled_iff _).1 hen
    cases hp.symm.trans hclear

/-! ## The persistent failure (R38, R297) -/

/-- The block is in Error and its retries are used up. -/
def State.FailedForGood (s : State) : Prop := s.ctl.cstate = .error ∧ s.ctl.persistFail = true

theorem State.FailedForGood.not_ready (h : s.FailedForGood) : s.ready = false := by
  obtain ⟨-, hp⟩ := h
  simp [State.ready, hp]

theorem State.FailedForGood.of_hostEffect (h : s.FailedForGood) (he : HostEffect s t) : t.FailedForGood := by
  cases he
  case started hf ho hi =>
    obtain ⟨hc, -⟩ := h
    cases hc.symm.trans hi
  all_goals exact h

/-- In Error no rule of the controller runs but the exit, which `PERSIST_FAIL` disables, and only the host's `reset`
writes `CSTATE`. -/
theorem State.FailedForGood.of_handled (h : s.FailedForGood) {e : Event}
    (hr : ∀ r, e = .hostCall r → r.hop ≠ 0x0E#8) (he : Handled s e t) : t.FailedForGood := by
  have ⟨hc, hp⟩ := h
  cases he
  case frameReceived r f ha hb ht =>
    rw [dispatchFrame_of_error (by simpa using hc)] at ht
    cases ht
    simpa [State.FailedForGood] using h
  case frameSpoilt r ha hb =>
    rw [checksumFail_of_error (s := { s with rx := r }) hc]
    exact h
  case expired k hk ht =>
    rw [timeoutStep, timeoutRule_of_error (s := s.disarm) k hc] at ht
    cases ht
    exact h
  case tenure hen ht => exact absurd hen (not_tenureEnabled_of_error hc)
  case errorExit hen =>
    obtain ⟨-, -, hclear⟩ := (errorExitEnabled_iff s).1 hen
    cases hp.symm.trans hclear
  case hostReset r hop => exact absurd hop (hr r rfl)
  case hostEffect r heff => exact h.of_hostEffect heff
  all_goals exact h

/-! ## The causes of an entry into Error (R298) -/

/-- Error has been entered once, by a StateError that `LAST_ERROR` and the log name (R296). -/
def ErrorEntry (s t : State) : Prop :=
  ∃ cause : ErrorCause, t.ctl.lastError = cause.code ∧
    t.out.logOut = s.out.logOut ++ [⟨s.ctl.cstate, .error, .stateError cause⟩] ∧
    t.ctl.errRetries = s.ctl.errRetries + 1#32

/-- What R298 allows a step from a state other than Error. -/
def EntersErrorByCause (s t : State) : Prop := t.ctl.cstate = .error → ErrorEntry s t

namespace EntersErrorByCause

theorem enterError (cause : ErrorCause) (s : State) : EntersErrorByCause s (enterError cause s) :=
  fun _ => ⟨cause, rfl, rfl, rfl⟩

theorem of_ne (h : t.ctl.cstate ≠ .error) : EntersErrorByCause s t := fun hc => absurd hc h

theorem of_keeps (he : s.ctl.cstate ≠ .error) (h : KeepsCState s t) : EntersErrorByCause s t := of_ne (h.1 ▸ he)

/-- A rule that has written neither `CSTATE`, the log nor the retries before. -/
theorem after (h : EntersErrorByCause u t) (hc : u.ctl.cstate = s.ctl.cstate) (hl : u.out.logOut = s.out.logOut)
    (hn : u.ctl.errRetries = s.ctl.errRetries) : EntersErrorByCause s t := by
  simpa only [EntersErrorByCause, ErrorEntry, hc, hl, hn] using h

/-- A rule that keeps `CSTATE`. -/
theorem keeps {m : Flow} (he : s.ctl.cstate ≠ .error) (hm : m.Yields (KeepsCState s)) :
    m.Yields (EntersErrorByCause s) :=
  hm.imp fun _ => of_keeps he

/-- R178. -/
theorem protocolTimeout {k : State → Flow} (he : s.ctl.cstate ≠ .error)
    (hk : ∀ t, KeepsCState s t → (k t).Yields (KeepsCState s)) :
    (protocolTimeout s k).Yields (EntersErrorByCause s) :=
  protocolTimeout_yields s (enterError _ s) fun _ => keeps he (hk _ (.of_eq rfl rfl))

/-! ### The rules of the frame kinds -/

/-- R185 leads to SlaveWaitingToJoin. -/
theorem sensingTraffic (f : Frame) (s : State) : (sensingTraffic f s).Yields (EntersErrorByCause s) := by
  unfold Machine.sensingTraffic
  simp only
  split
  · exact (KeepsCState.answerSolicit _ _).imp fun t ⟨hc, _⟩ => of_ne (by simp [hc])
  · exact of_ne (by simp)

/-- R240: a second token in this block is a DuplicateToken. -/
theorem tokenRule (he : s.ctl.cstate ≠ .error) (h : Header) : (tokenRule h s).Yields (EntersErrorByCause s) := by
  unfold Machine.tokenRule
  split
  · split
    · split
      · exact of_ne he
      · exact enterError _ s
    · split
      · exact enterError _ s
      · exact of_ne he
    · exact (KeepsCState.passToken _).imp fun t ⟨hc, _⟩ => of_ne (by simp [hc])
    · exact of_ne he
  · exact of_ne he

/-- R241: a solicit that a master hears is a SecondMaster. -/
theorem solicitRule (he : s.ctl.cstate ≠ .error) (h : Header) : (solicitRule h s).Yields (EntersErrorByCause s) := by
  unfold Machine.solicitRule
  split
  · exact keeps he (KeepsCState.answerSolicit h s)
  · exact enterError _ s
  · exact of_ne he

theorem addressOfferedRule (he : s.ctl.cstate ≠ .error) (h : Header) :
    (addressOfferedRule h s).Yields (EntersErrorByCause s) := by
  unfold Machine.addressOfferedRule
  split
  · exact of_ne (by simp)
  · exact of_ne he

theorem setSuccessorRule (he : s.ctl.cstate ≠ .error) (h : Header) (d : List Byte) :
    (setSuccessorRule h d s).Yields (EntersErrorByCause s) := by
  unfold Machine.setSuccessorRule
  split
  · exact of_ne he
  · split
    · refine send_bind_yields _ _ _ _ _ (fun bs => ?_) fun room bs => of_ne he
      simp only
      split
      · exact of_ne (by simp)
      · exact of_ne he
    · exact of_ne he

theorem kindRule (he : s.ctl.cstate ≠ .error) (f : Frame) : (kindRule f s).Yields (EntersErrorByCause s) :=
  kindRule_yields f s (tokenRule he) (solicitRule he) (fun h => keeps he (KeepsCState.getAddressRule h s))
    (addressOfferedRule he) (fun h d => keeps he (KeepsCState.setAddressRule h d s))
    (fun h => keeps he (KeepsCState.addressSetRule h s)) (setSuccessorRule he)
    (fun h => keeps he (KeepsCState.successorSetRule h s)) (of_ne he)

/-- R179: a frame with this block's own id is a DuplicateStation. -/
theorem dispatchFrame (he : s.ctl.cstate ≠ .error) (f : Frame) :
    (dispatchFrame f (Machine.kindRule f) s).Yields (EntersErrorByCause s) := by
  rcases dispatchFrame_cases f (Machine.kindRule f) s with ⟨-, h⟩ | ⟨-, h⟩ | ⟨-, -, -, h⟩ | ⟨-, -, -, h⟩ <;> rw [h]
  · exact of_ne he
  · exact sensingTraffic f s
  · exact enterError _ s
  · exact kindRule he f

/-- R180. -/
theorem checksumFail (he : s.ctl.cstate ≠ .error) (hi : s.ctl.cstate ≠ .initial)
    (hb : s.ctl.cstate ≠ .broadcastingStationId) : EntersErrorByCause s (checksumFail s) := by
  rw [checksumFail_of_active hi hb he]
  split
  · rw [enterError_ckCount]
    exact enterError _ s
  · exact of_ne he

/-! ### The timers -/

theorem rearmed (he : s.ctl.cstate ≠ .error) (k : TimerKind) :
    (Machine.protocolTimeout s fun t => .go (t.arm k)).Yields (EntersErrorByCause s) :=
  protocolTimeout he fun _ ht => ht.trans (.of_eq rfl rfl)

/-- R190. -/
theorem abandonJoin (he : s.ctl.cstate ≠ .error) : (abandonJoin s).Yields (EntersErrorByCause s) :=
  (protocolTimeout (s := { s with ctl := { s.ctl with pending := none, pendingPred := none } }) he
    fun t ht => KeepsCState.after (KeepsCState.passToken t) ht).imp fun _ ht => ht.after rfl rfl rfl

/-- R194. -/
theorem joinReplyExpired (he : s.ctl.cstate ≠ .error) : (joinReplyExpired s).Yields (EntersErrorByCause s) :=
  (rearmed (s := { s with ctl := { s.ctl with peer := none } }) he .joinWait).imp fun _ ht => ht.after rfl rfl rfl

theorem timeoutRule (he : s.ctl.cstate ≠ .error) (k : TimerKind) :
    (timeoutRule k s).Yields (EntersErrorByCause s) := by
  have hlost : (tokenLost s).Yields (EntersErrorByCause s) := enterError .tokenLost s
  unfold Machine.timeoutRule
  split
  · trivial
  · exact of_ne (by simp)
  · exact rearmed he .joinWait
  · exact joinReplyExpired he
  · exact rearmed he .resp
  · exact hlost
  · exact hlost
  · split
    · exact hlost
    · exact of_ne he
  · split
    · exact keeps he (KeepsCState.passToken s)
    · exact of_ne he
  · split
    case h_4 => exact of_ne he
    all_goals exact abandonJoin he
  · exact of_ne he

/-! ### The events -/

theorem of_hostEffect (he : s.ctl.cstate ≠ .error) (h : HostEffect s t) : EntersErrorByCause s t := by
  cases h
  case started hf ho hc => exact of_ne (by simp)
  all_goals exact of_ne he

/-- Only a frame, a spoilt frame and an expiry can enter Error; `reset` leads to Initial. -/
theorem of_handled (he : s.ctl.cstate ≠ .error) {e : Event} (h : Handled s e t) : EntersErrorByCause s t := by
  cases h
  case frameReceived r f ha hb ht =>
    have hrec : (recordFrame f { s with rx := r }).ctl.cstate ≠ .error := by simpa using he
    exact ((dispatchFrame hrec f).of_outcome ht).after (by simp) (by simp) (by simp)
  case frameSpoilt r ha hb =>
    obtain ⟨-, hi, hbid⟩ := running_of_active ha
    exact checksumFail (s := { s with rx := r }) he hi hbid
  case expired k hk ht => exact (timeoutRule (s := s.disarm) he k).of_outcome ht
  case tenure ht => exact of_keeps he ((KeepsCState.tenureStep s).of_outcome ht)
  case errorExit hen =>
    obtain ⟨-, hc, -⟩ := (errorExitEnabled_iff s).1 hen
    exact absurd hc he
  case hostReset r hop => exact of_ne (by simp [State.afterReset, State.resetWith, Controller.reset])
  case hostEffect r heff => exact of_hostEffect he heff
  all_goals exact of_ne he

end EntersErrorByCause

end

/-- Settles O53: the failure is kept by every event but `reset`, and it denies readiness. -/
theorem persistentFailureLastsUntilReset : Obligations.PersistentFailureLastsUntilReset := by
  intro s t hc hp hr h
  have hfailed : t.FailedForGood := by
    rcases handled_of_step h with rfl | ⟨e, rest, hs, he⟩
    · exact ⟨hc, hp⟩
    · exact State.FailedForGood.of_handled (s := s.withSchedule rest) ⟨hc, hp⟩ (hop_of_not_resetNext hs hr) he
  have ⟨herror, hpersist⟩ := hfailed
  exact ⟨herror, hpersist, hfailed.not_ready⟩

/-- Settles O56: one lemma for each rule says that it enters Error by `enterError` or not at all. -/
theorem onlyStateErrorsEnterError : Obligations.OnlyStateErrorsEnterError := by
  intro s t h hne
  rcases handled_of_step h with rfl | ⟨e, rest, -, he⟩
  · exact fun hc => absurd hc hne
  · exact EntersErrorByCause.of_handled (s := s.withSchedule rest) hne he

end Sys2Proof.Machine
end

section
/-! How far the host reaches (spec/60_exceptions.md R305): what an operation other than `start` and `reset` writes. -/

namespace Sys2Proof.Machine

open Sys2Proof

/-- What a host operation other than `start` and `reset` does: it answers, and `open` may open the block, the two
enqueue operations may queue a frame, and the two waits may add a waiter. -/
inductive PortWrite (s : State) : Instr → State → Prop
  | answered (i : Instr) (hop : Byte) (status : HostStatus) (value : HostValue) :
    PortWrite s i (s.reply hop status value)
  | opened (d : List Byte) : PortWrite s (.openDevice d) ({ s with opened := true }.reply 0x00#8 .ok .none)
  | queued {i : Instr} {f : HostFrame} (hi : i = .enqueueFrame f ∨ i = .sendFrame f) (hop : Byte) :
    PortWrite s i ({ s with ctl := { s.ctl with txq := s.ctl.txq ++ [frameOfHost f] } }.reply hop .ok .none)
  | waits {i : Instr} (hi : i = .waitForCommandFrame ∨ i = .waitForToken) (k : WaiterKind) :
    PortWrite s i { s with waiters := s.waiters ++ [⟨k, false⟩] }

namespace PortWrite

variable {s t : State}

theorem openDevice (d : List Byte) (h : exec (.openDevice d) s = .next t) : PortWrite s (.openDevice d) t := by
  cases hf : s.fatal with
  | true => rw [exec_openDevice_fatal d hf] at h; cases h; exact answered _ _ _ _
  | false =>
    cases ho : s.opened with
    | true => rw [exec_openDevice_badState d hf ho] at h; cases h; exact answered _ _ _ _
    | false =>
      rw [exec_openDevice_closed d hf ho] at h
      cases h
      split
      · exact opened d
      · exact answered _ _ _ _

theorem enqueue {i : Instr} {f : HostFrame} (hi : i = .enqueueFrame f ∨ i = .sendFrame f) (hop : Byte) (s : State) :
    PortWrite s i (enqueue hop f s) := by
  unfold Machine.enqueue
  split
  · exact answered _ _ _ _
  · split
    · exact answered _ _ _ _
    · split
      · exact answered _ _ _ _
      · exact queued hi hop

theorem callWait {i : Instr} (hi : i = .waitForCommandFrame ∨ i = .waitForToken) (hop : Byte) (k : WaiterKind)
    (s : State) : PortWrite s i (callWait hop k s) := by
  unfold Machine.callWait
  split
  · exact answered _ _ _ _
  · exact waits hi k

theorem replyEncoded (i : Instr) (hop : Byte) (r : Except EncodeField (List Byte)) (s : State) :
    PortWrite s i (replyEncoded hop r s) := by
  cases r <;> exact answered _ _ _ _

/-- An operation that reads `CSTATE` and then only answers (R265, R266, R274). -/
theorem reads (i : Instr) {hop : Byte} {value : State → HostValue}
    (h : readingCState (fun s => .next (s.reply hop .ok (value s))) s = .next t) : PortWrite s i t := by
  unfold readingCState at h
  split at h <;> cases h
  exact answered _ _ _ _

theorem of_exec {i : Instr} (hi : i.frame? = none) (hs : i ≠ .start) (hr : i ≠ .reset) (h : exec i s = .next t) :
    PortWrite s i t := by
  cases i
  case openDevice d => exact openDevice d h
  case start => exact absurd rfl hs
  case enqueueFrame f => cases h; exact enqueue (.inl rfl) _ s
  case sendFrame f => cases h; exact enqueue (.inr rfl) _ s
  case getState => exact reads _ (show execGetState s = .next t from h)
  case isReady => exact reads _ (show execIsReady s = .next t from h)
  case waitForCommandFrame => cases h; exact callWait (.inl rfl) _ _ s
  case readCounters => cases h; exact answered _ _ _ _
  case waitForToken => cases h; exact callWait (.inr rfl) _ _ s
  case encodeHeader => cases h; exact replyEncoded _ _ _ s
  case encodeCommandFrame => cases h; exact replyEncoded _ _ _ s
  case decodeHeader bs =>
    simp only [exec, execDecodeHeader] at h
    split at h <;> cases h <;> exact answered _ _ _ _
  case decodeFrame bs =>
    simp only [exec, execDecodeFrame] at h
    split at h <;> cases h <;> exact answered _ _ _ _
  case readStatus => exact reads _ (show execReadStatus s = .next t from h)
  case reset => exact absurd rfl hr
  all_goals cases hi

end PortWrite

/-- Settles O57: each of the three writes names the operations that can make it. -/
theorem hostReachesTheFsmOnlyByStartAndReset : Obligations.HostReachesTheFsmOnlyByStartAndReset := by
  intro i s t hi hs hr h
  cases PortWrite.of_exec hi hs hr h with
  | answered => exact ⟨rfl, rfl, rfl, rfl, rfl, rfl, fun _ => rfl, fun _ => rfl, fun _ _ => rfl⟩
  | opened d => exact ⟨rfl, rfl, rfl, rfl, rfl, rfl, fun _ => rfl, fun hd => absurd rfl (hd d), fun _ _ => rfl⟩
  | @queued _ f hq =>
    have hne (hf : ∀ f, i ≠ .enqueueFrame f ∧ i ≠ .sendFrame f) : False := hq.elim (hf f).1 (hf f).2
    exact ⟨rfl, rfl, rfl, rfl, rfl, rfl, fun hf => (hne hf).elim, fun _ => rfl, fun _ _ => rfl⟩
  | waits hw =>
    exact ⟨rfl, rfl, rfl, rfl, rfl, rfl, fun _ => rfl, fun _ => rfl, fun hc ht => (hw.elim hc ht).elim⟩

end Sys2Proof.Machine
end

section
/-! The medium between the stations (spec/60_exceptions.md R308, spec/41_frame_reader.md R158). -/

namespace Sys2Proof.Machine

open Sys2Proof

/-- What every station is after the next byte of station `i` has been carried. -/
theorem Bus.carry_getElem? {bus : Bus} {i : Nat} {sender : Station} {b : Byte} (hi : bus[i]? = some sender)
    (hb : sender.block.out.wireOut[sender.carried]? = some b) (j : Nat) :
    (Bus.carry i bus)[j]? = bus[j]?.map fun x => if j = i then { x with carried := x.carried + 1 } else x.hear b := by
  simp only [Bus.carry, hi, hb, List.getElem?_mapIdx]

/-- Settles O59: the sender counts its byte, and every other station hears it. -/
theorem mediumCarriesToEveryOtherStation : Obligations.MediumCarriesToEveryOtherStation :=
  fun _ _ j _ _ _ hi hj hb =>
    ⟨_, (Bus.carry_getElem? hi hb j).trans (congrArg _ hj), fun hji => if_pos hji, fun hji => if_neg hji⟩

end Sys2Proof.Machine
end

section
/-! Reset (spec/70_reset_and_hazards.md R320, R321). -/

namespace Sys2Proof.Machine

open Sys2Proof

@[simp] theorem State.afterReset_ctl (s : State) : s.afterReset.ctl = Controller.reset := rfl

@[simp] theorem State.afterReset_rx (s : State) : s.afterReset.rx = Receiver.reset s.params := rfl

/-- The host's `reset` is accepted in every state (R320). -/
theorem exec_reset (s : State) : exec .reset s = .next s.afterReset := rfl

/-- Settles O39: the next state is `State.afterReset`, whose controller and receiver are the reset records. -/
theorem resetRestoresEveryRegister : Obligations.ResetRestoresEveryRegister := by
  intro s
  have hctl := s.afterReset_ctl
  have hrx : s.afterReset.rx = { Receiver.reset s.params with rbuf := s.afterReset.rx.rbuf } := s.afterReset_rx
  exact ⟨s.afterReset, exec_reset s, hctl, hrx, rfl, rfl, rfl, rfl, rfl, rfl⟩

/-- A bound raised to at least 1 is admitted, whatever the OPEN parameter holds (R8). -/
theorem boundOk_map_max_one (n : Option Nat) : boundOk (n.map (max 1)) = true := by
  cases n with
  | none => rfl
  | some n => simp [boundOk]

/-- A 32-bit count raised to at least 1 is a threshold that its register can reach (log entry 6). -/
theorem max_one_toNat_lt (n : Count) : max 1 n.toNat < 2 ^ 32 := max_lt (by decide) n.isLt

/-- The default profile is one of the parameter sets the spec admits, whatever its OPEN parameters hold (R7, R8). -/
theorem Params.profile_wellFormed : Params.profile.wellFormed = true := by
  have hRetry : min Config.nRetryRaw.toNat (2 ^ 32 - 2) + 1 < 2 ^ 32 := by omega
  have hTimeout := max_one_toNat_lt Config.nTimeoutRaw
  have hChkFail := max_one_toNat_lt Config.nChkFailRaw
  simp only [Params.wellFormed, Bool.and_eq_true, decide_eq_true_eq]
  exact ⟨⟨⟨⟨⟨⟨⟨by decide, boundOk_map_max_one _⟩, boundOk_map_max_one _⟩, le_max_left _ _⟩, hTimeout⟩, le_max_left _ _⟩,
    hChkFail⟩, hRetry⟩

/-- Settles O50: the reset registers have the invariant under every admitted parameter set, and the default profile is
one. -/
theorem resetStateHasTheInvariant : Obligations.ResetStateHasTheInvariant :=
  ⟨resetWith_inv Params.profile_wellFormed, fun _ hp => resetWith_inv hp⟩

end Sys2Proof.Machine
end
